-- ==== Sys2Proof/Word.lean ====
section
/-! DEFINITION. The words of the two links: bytes and the wide values the host link carries whole. -/

namespace Sys2Proof

/-- One byte of a host link or node link record. -/
abbrev Byte := BitVec 8

/-- A status word of a node reply: bit 0 SENSOR_FAULT to bit 7 SERVICE (R192). -/
abbrev Status := BitVec 8

/-- A set of event kinds: bit n stands for event kind code n (R192). -/
abbrev KindSet := BitVec 64

/-- An 8-byte value of the host link: a parameter value, a slot descriptor (R192, R196). -/
abbrev Word64 := BitVec 64

end Sys2Proof
end

