-- ==== Sys2Proof/Config.lean ====
section
/-! DEFINITION. What one implementation fixes and the manual does not give: free values, with no body. -/

namespace Sys2Proof

/-- The four incident slots (R141). -/
inductive SlotId where
  | s1 | s2 | s3 | s4
  deriving DecidableEq, Repr, Inhabited

/-- The regions of record memory (R132). A block that lies in none of them is spare. -/
inductive Region where
  | ring
  | log
  | slot (k : SlotId)
  | directory
  | spare
  deriving DecidableEq, Repr, Inhabited

/-- The region a block of record memory lies in. R152 says that every region begins on a block
boundary and gives no block numbers: free (log 7). -/
opaque Config.blockRegion : Nat → Region

/-- The entry places of that block's region which contain word `word` of block `block`. R152 gives
no sizes of entry places: free (log 7). -/
opaque Config.wordPlaces (block word : Nat) : List Nat

/-- How long the COMPUTE work begun at a clock value takes, in microseconds, before it is bounded by
the 200 µs of R109: free (log 22). -/
opaque Config.computeTime : Nat → Nat

end Sys2Proof
end

