-- ==== Sys2Proof/Syntax.lean ====
section
/-! DEFINITION. The names of the manual as types, and `Instr`: one constructor for each row of
spec/opcode_table.json, with the row's operands. -/

namespace Sys2Proof

/-- The six axles (00 Numbering). -/
inductive Axle where
  | a1 | a2 | a3 | a4 | a5 | a6
  deriving DecidableEq, Repr

/-- One value for each axle. -/
structure PerAxle (α : Type) where
  a1 : α
  a2 : α
  a3 : α
  a4 : α
  a5 : α
  a6 : α
  deriving DecidableEq, Repr

/-- One value for each incident slot. -/
structure PerSlot (α : Type) where
  s1 : α
  s2 : α
  s3 : α
  s4 : α
  deriving DecidableEq, Repr

/-- The two node lines (R95). -/
inductive Line where
  | a | b
  deriving DecidableEq, Repr

/-- The two schedule areas (06 Schedule areas). -/
inductive AreaId where
  | a | b
  deriving DecidableEq, Repr

/-- The eight nodes of the node link (00 The outside of the part). -/
inductive Node where
  | axle (a : Axle)
  | air
  | db
  deriving DecidableEq, Repr

/-- The operating modes, in the order of 10 The modes. -/
inductive Mode where
  | unconfigured | ready | running | stopped | parking | parked | unparking
  deriving DecidableEq, Repr

/-- The host-silence states (01 Host silence). -/
inductive Silence where
  | normal | silentHold | silentFallback
  deriving DecidableEq, Repr

/-- The causes of the emergency latch (R10). -/
inductive LatchCause where
  | flag | input | silence
  deriving DecidableEq, Repr

/-- The dynamic brake states (03). -/
inductive DbState where
  | off | exciting | available | cool | lost | rest
  deriving DecidableEq, Repr

/-- The causes DB_LOST carries (R46). -/
inductive DbLostCause where
  | node | sensorFault | valveFault | readyDropped
  deriving DecidableEq, Repr

/-- The slide states of an axle (05). -/
inductive SlideState where
  | normal | relief | dump | recover | isolated
  deriving DecidableEq, Repr

/-- The isolation causes (R87, R88). -/
inductive IsoCause where
  | node | sensor | cutout
  deriving DecidableEq, Repr

/-- The transactions of the node link (06 Lines, nodes and transactions). -/
inductive Transaction where
  | axlePoll | axleCmd | airPoll | airCmd | dbPoll | dbCmd | compute
  deriving DecidableEq, Repr

/-- The 47 event kinds in the order of the owner table of R186. -/
inductive EventKind where
  | emergencyOn | emergencyReset | hostSilent | hostResumed
  | shortfallOn | shortfallOff | shortfallSustained
  | dbAvailable | dbExciteFail | dbLost | dbCoolOn | dbCoolOff
  | refDegraded
  | slideOnset | dumpOpen | dumpLimit | slideEnd | slideSustained | axleLocked | axleIsolated
  | axleRestored
  | nodeLost | nodeRestored | statusSet | loopFail | lateReply | frameOverrun | frameStop
  | configCommit
  | incidentOpen | incidentFrozen | incidentIncomplete | incidentLost | incidentReplaced
  | logWrap | captureMissed | scrubCorrected | memoryFault | scrubLate | timeWrap
  | powerOn | softReset | parked | parkTimeout | unparked | rollDetected | hostMark
  deriving DecidableEq, Repr

/-- The subject of an event (R137). -/
inductive Subject where
  | absent
  | axle (a : Axle)
  | node (n : Node)
  | schedSlot (i : Nat)
  | incidentSlot (k : SlotId)
  deriving DecidableEq, Repr

/-- An entry of the event log (R137). -/
structure LogEntry where
  seq : Nat
  time : Nat
  kind : EventKind
  subject : Subject
  value1 : Option Int
  value2 : Option Int
  gapMark : Bool
  deriving DecidableEq, Repr

/-- The per-axle part of a snapshot (R134). -/
structure SnapAxle where
  speed : Nat
  fresh : Bool
  slide : SlideState
  ceiling : Nat
  command : Nat
  target : Nat
  dumpOpen : Bool
  measured : Option Nat
  deriving DecidableEq, Repr

/-- A snapshot (R134). -/
structure Snapshot where
  number : Nat
  frame : Nat
  time : Nat
  mode : Mode
  dReq : Nat
  dEff : Nat
  latch : Bool
  silence : Silence
  vRef : Nat
  degraded : Bool
  dbState : DbState
  heat : Nat
  eRepTotal : Nat
  shortfall : Bool
  area : AreaId
  axles : PerAxle SnapAxle
  deriving DecidableEq, Repr

/-- What a read of record memory gave where a word failed its check code and "is used as read"
(R157): the contents the read found in place of those stored (log 8). -/
inductive Stored where
  | snapshot (s : Snapshot)
  | gap (first last : Nat)
  | event (e : LogEntry)
  deriving DecidableEq, Repr

/-- The words of one block that were found with a double error (R157). -/
structure BlockFault where
  block : Nat
  words : List Nat
  deriving DecidableEq, Repr

/-- The commands of the block: one constructor for each row of spec/opcode_table.json. A host
request carries its tag and the fields of its payload as R195 and R196 lay them out; a field that
can hold a code outside its values is the raw byte. -/
inductive Instr where
  | demand (tag : Byte) (dReq i : BitVec 16) (dbEnable emergency : Bool)
  | emergencyReset (tag : Byte)
  | start (tag : Byte)
  | stop (tag : Byte)
  | park (tag : Byte)
  | unpark (tag : Byte)
  | reset (tag : Byte)
  | paramWrite (tag set first : Byte) (values : List Word64)
  | paramRead (tag set copy first count : Byte)
  | paramCommit (tag : Byte) (sets : List Byte)
  | schedWrite (tag area first : Byte) (descriptors : List Word64)
  | schedRead (tag area first count : Byte)
  | scheduleSelect (tag area : Byte)
  | axleCutout (tag axle onOff : Byte)
  | mark (tag : Byte) (value : BitVec 16)
  | incidentList (tag slot : Byte)
  | protect (tag slot : Byte)
  | release (tag slot : Byte)
  | logClear (tag : Byte)
  | ringClear (tag : Byte)
  | readSnapshots (tag source cont : Byte) (first : BitVec 32) (countStride mask : Byte)
  | readEvents (tag cont : Byte) (first : BitVec 32) (count : Byte)
  | readAxles (tag : Byte)
  | statusRead (tag : Byte)
  | noticeMask (tag : Byte) (notice attention : KindSet)
  | hostRecordReceived (kind tag : Byte) (payload : List Byte)
  | hostByteGapTimeout
  | hostRecordSent
  | beginSoftReset (completes : Bool)
  | supplyApplied
  | resetInputAsserted (completes : Bool)
  | resetEnd (emergency rate1 rate0 directoryDamaged emergencyFirst : Bool)
  | emergencyInputRise
  | emergencyInputFall
  | syncRisingEdge
  | frameTimerExpiry
  | slotIntervalExpiry
  | nodeRequestSent
  | echoMismatch
  | nodeReplyStart (line : Line)
  | nodeRecordReceived (line : Line) (bytes : List Byte)
  | nodeReplyGapExpiry
  | responseTimeoutExpiry
  | computeComplete
  | demandTimeoutExpiry
  | silentHoldExpiry
  | exciteTimeExpiry
  | restTimeExpiry
  | dumpLimitExpiry (axle : Axle)
  | dumpRestExpiry (axle : Axle)
  | parkingTimeExpiry
  | readTimeoutExpiry
  | scrubBlockDue
  | scrubPeriodExpiry
  | timeTagWrap
  | snapshotWriteDone
  | logWriteDone
  | copyDone (faults : List BlockFault) (asRead : Option Snapshot)
  | scrubDone (corrected : Nat) (failing : List Nat)
  | readItemDone (faults : List BlockFault) (asRead : Option Stored)
  | hostByteReceived (byte : Byte) (stopBit : Bool)
  | powerLoss (completes : Bool)
  deriving DecidableEq, Repr

end Sys2Proof
end

