-- ==== Sys2Proof/Machine/State.lean ====
section
/-! DEFINITION. The state of the EB-610, block by block, as plain data, and its value after a power-on
reset. What a rule makes computable from other state (E_rep total, the copy work list, the free reply
places, the ready flag, the attention output) is not stored twice. -/

namespace Sys2Proof

/-! ## Per-axle, per-slot and per-node values -/

/-- The same value for every axle. -/
def PerAxle.fill {α : Type} (x : α) : PerAxle α := ⟨x, x, x, x, x, x⟩

/-- The same value for every incident slot. -/
def PerSlot.fill {α : Type} (x : α) : PerSlot α := ⟨x, x, x, x⟩

namespace Machine

/-- One value for each node (R118). -/
structure PerNode (α : Type) where
  axles : PerAxle α
  air : α
  db : α
  deriving DecidableEq, Repr

/-! ## DIU (01) -/

/-- The Demand Intake Unit (R14). The latch cause is absent while the latch is clear, so one Option
holds both. -/
structure Diu where
  dReq : Nat
  indep : Nat
  dbEnable : Bool
  demandEmergency : Bool
  dEff : Nat
  latch : Option LatchCause
  emergInput : Bool
  silence : Silence
  silenceTime : Nat
  holdTime : Nat
  deriving DecidableEq, Repr

/-- R14. -/
def Diu.reset : Diu where
  dReq := 0
  indep := 0
  dbEnable := false
  demandEmergency := false
  dEff := 0
  latch := none
  emergInput := false
  silence := .normal
  silenceTime := 0
  holdTime := 0

/-! ## BLE (02) -/

/-- The axle table fields the BLE owns. -/
structure BleAxle where
  command : Nat
  airShare : Nat
  target : Nat
  clamped : Bool
  measured : Option Nat
  deriving DecidableEq, Repr

/-- The Blending Engine (R38). `emergencyFlag` is the AIR_CMD emergency flag of the outputs in force
(R18, R34, R172, R173). `released` says that EMERGENCY_RESET has cleared the latch in RUNNING since the
last COMPUTE (R34; log 34). -/
structure Ble where
  axles : PerAxle BleAxle
  airStatus : Status
  eTotal : Nat
  aTotal : Nat
  shortfall : Bool
  sustainTime : Nat
  sustainedRaised : Bool
  emergencyFlag : Bool
  released : Bool
  deriving DecidableEq, Repr

/-- R38; the values no rule gives are those of log 28. -/
def Ble.reset : Ble where
  axles := .fill ⟨0, 0, 0, false, none⟩
  airStatus := 0
  eTotal := 0
  aTotal := 0
  shortfall := false
  sustainTime := 0
  sustainedRaised := false
  emergencyFlag := false
  released := false

/-! ## DBS (03) -/

/-- The Dynamic Brake Supervisor (R56). `faultInFrame` says that a taken reply of this frame held
SENSOR_FAULT or VALVE_FAULT (R47). -/
structure Dbs where
  state : DbState
  exciteTime : Nat
  restTime : Nat
  pendingEnable : Bool
  cleanFrames : Nat
  nodeStatus : Status
  heat : Nat
  eRep : PerAxle Nat
  capacity : PerAxle Nat
  faultInFrame : Bool
  deriving DecidableEq, Repr

/-- R56. -/
def Dbs.reset : Dbs where
  state := .off
  exciteTime := 0
  restTime := 0
  pendingEnable := false
  cleanFrames := 0
  nodeStatus := 0
  heat := 0
  eRep := .fill 0
  capacity := .fill 0
  faultInFrame := false

/-! ## ASU (04) -/

/-- The per-axle fields of the Axle Speed Unit. -/
structure AsuAxle where
  interval : Nat
  speed : Nat
  previous : Nat
  decel : Int
  fresh : Bool
  continuity : Bool
  valid : Bool
  deriving DecidableEq, Repr

/-- The Axle Speed Unit (R69). -/
structure Asu where
  axles : PerAxle AsuAxle
  vRef : Nat
  degraded : Bool
  standstill : Bool
  standstillCount : Nat
  acquire : Bool
  deriving DecidableEq, Repr

/-- R69: the standstill flag is set by convention. -/
def Asu.reset : Asu where
  axles := .fill ⟨0, 0, 0, 0, false, false, false⟩
  vRef := 0
  degraded := false
  standstill := true
  standstillCount := 0
  acquire := false

/-! ## WSC (05) -/

/-- The per-axle fields of the Wheel Slide Controller. The cause set is the three cause flags;
CUTOUT is in it exactly while the cut-out flag is on (R88). Episode and lock time are in 0.1 ms. -/
structure WscAxle where
  slide : SlideState
  nodeCause : Bool
  sensorCause : Bool
  cutout : Bool
  ceiling : Nat
  dumpOpen : Bool
  dumpOpenTime : Nat
  dumpRest : Nat
  reliefFrames : Nat
  recoverFrames : Nat
  episodeTime : Nat
  lockTime : Nat
  sustainedRaised : Bool
  lockRaised : Bool
  sensorInvalid : Nat
  valveFault : Bool
  deriving DecidableEq, Repr

/-- R93. -/
def WscAxle.reset : WscAxle where
  slide := .isolated
  nodeCause := true
  sensorCause := false
  cutout := false
  ceiling := 800
  dumpOpen := false
  dumpOpenTime := 0
  dumpRest := 0
  reliefFrames := 0
  recoverFrames := 0
  episodeTime := 0
  lockTime := 0
  sustainedRaised := false
  lockRaised := false
  sensorInvalid := 0
  valveFault := false

/-! ## NLC (06) -/

/-- The retry policies (R101). -/
inductive RetryPolicy where
  | none | same | alternate | sameThenAlternate
  deriving DecidableEq, Repr

/-- A slot descriptor (06 Schedule areas). `node` is absent for COMPUTE only. -/
structure SlotDesc where
  kind : Transaction
  node : Option Node
  line : Line
  interval : Nat
  policy : RetryPolicy
  retryOnStatus : Bool
  ignore : Status
  parkActive : Bool
  stopOnError : Bool
  deriving DecidableEq, Repr

/-- A schedule area (R102). -/
structure Area where
  slots : List SlotDesc
  validated : Bool
  deriving DecidableEq, Repr

/-- The link states (R105). -/
inductive LinkState where
  | idle | waiting | inFrame
  deriving DecidableEq, Repr

/-- The outcomes of a slot (R116). -/
inductive Outcome where
  | notRun | ok | okAfterRetry | failed | skipped
  deriving DecidableEq, Repr

/-- The failure causes of an attempt (R95), in the order of R116. -/
inductive FailCause where
  | noReply | messageError | echo | status
  deriving DecidableEq, Repr

/-- A slot record (R116). -/
structure SlotRecord where
  outcome : Outcome
  lastCause : Option FailCause
  failedCount : Nat
  lastFlags : Status
  deriving DecidableEq, Repr

/-- The initial values of a slot record (R116). -/
def SlotRecord.initial : SlotRecord := ⟨.notRun, none, 0, 0⟩

/-- The health states of a node (R114). -/
inductive HealthState where
  | healthy | stale | lost
  deriving DecidableEq, Repr

/-- An entry of the node health table (R114). -/
structure Health where
  state : HealthState
  failed : Nat
  good : Nat
  deriving DecidableEq, Repr

/-- How far an attempt has come (R98): sending its request until a time, waiting for a reply until
a deadline, or receiving a reply that began in time. -/
inductive Phase where
  | sending (sentAt : Nat)
  | awaiting (deadline : Nat)
  | receiving (deadline : Nat)
  deriving DecidableEq, Repr

/-- An attempt in progress (R95, R96). -/
structure Attempt where
  number : Nat
  line : Line
  seq : Nat
  request : List Byte
  timeout : Nat
  phase : Phase
  deriving DecidableEq, Repr

/-- Slot progress (R95, R108, R109): nothing, an attempt of a slot, the COMPUTE slot with the mode
its event was raised in, or the wait for the interval of a completed slot. -/
inductive Progress where
  | none
  | attempt (slot start : Nat) (a : Attempt)
  | compute (slot start : Nat) (raisedIn : Mode) (doneAt : Nat)
  | between (slot startAt : Nat)
  deriving DecidableEq, Repr

/-- The MDC's choice of frame period (R175). -/
inductive PeriodChoice where
  | frame | park
  deriving DecidableEq, Repr

/-- The Node Link Controller (R118). Times are microseconds of the clock; `period` is Tf. -/
structure Nlc where
  areaA : Area
  areaB : Area
  inUse : AreaId
  selected : AreaId
  link : LinkState
  awaitFirstEdge : Bool
  startPending : Option Nat
  pendingDue : Nat
  haltRequested : Bool
  frameCounter : Nat
  frameDue : Nat
  nextDue : Nat
  period : Nat
  frameChoice : PeriodChoice
  progress : Progress
  seq : PerNode Nat
  records : List SlotRecord
  health : PerNode Health
  deriving DecidableEq, Repr

/-- R118; the values no rule gives are those of log 28. -/
def Nlc.reset : Nlc where
  areaA := ⟨[], false⟩
  areaB := ⟨[], false⟩
  inUse := .a
  selected := .a
  link := .idle
  awaitFirstEdge := false
  startPending := none
  pendingDue := 0
  haltRequested := false
  frameCounter := 0
  frameDue := 0
  nextDue := 0
  period := 0
  frameChoice := .frame
  progress := .none
  seq := ⟨.fill 0, 0, 0⟩
  records := []
  health := ⟨.fill ⟨.lost, 0, 0⟩, ⟨.lost, 0, 0⟩, ⟨.lost, 0, 0⟩⟩

/-! ## PST (07) -/

/-- The six parameter sets (07). -/
inductive ParamSet where
  | link | wheel | blend | slide | dbrake | recorder
  deriving DecidableEq, Repr

/-- The values of Frame Start Source (R105). -/
inductive StartSource where
  | timer | sync | syncThenTimer
  deriving DecidableEq, Repr

/-- LINK. Frame Period has no default and may be unset. -/
structure LinkParams where
  framePeriod : Option Nat
  parkPeriod : Nat
  responseTimeout : Nat
  holdFrames : Nat
  reintegration : Nat
  startSource : StartSource
  retryEnable : Bool
  frameStop : Bool
  reportDivisor : Nat
  deriving DecidableEq, Repr

/-- WHEEL. The circumferences and the pulses have no default and may be unset. -/
structure WheelParams where
  circumference : PerAxle (Option Nat)
  pulses : Option Nat
  fallLimit : Nat
  riseLimit : Nat
  standstillTime : Nat
  deriving DecidableEq, Repr

/-- BLEND. -/
structure BlendParams where
  applyRate : Nat
  releaseRate : Nat
  airOffset : Nat
  airGain : Nat
  ceiling : Nat
  emergencyPressure : Nat
  parkPressure : Nat
  demandTimeout : Nat
  silentHold : Nat
  fallbackDemand : Nat
  silentEmergency : Bool
  tolerance : Nat
  sustain : Nat
  deriving DecidableEq, Repr

/-- SLIDE. -/
structure SlideParams where
  creepBase : Nat
  creepRatio : Nat
  decelThreshold : Nat
  recoveryCreep : Nat
  reliefFrames : Nat
  dumpLimit : Nat
  dumpRest : Nat
  recoverFrames : Nat
  adhesionCut : Nat
  adhesionStep : Nat
  sustainedTime : Nat
  lockSpeed : Nat
  lockTime : Nat
  rollSpeed : Nat
  rollTime : Nat
  deriving DecidableEq, Repr

/-- DBRAKE. `points` holds the eight breakpoints (v, E). -/
structure DbrakeParams where
  count : Nat
  points : List (Nat × Nat)
  continuous : Nat
  heatHigh : Nat
  heatLow : Nat
  cooling : Nat
  exciteTime : Nat
  restTime : Nat
  deriving DecidableEq, Repr

/-- RECORDER. -/
structure RecorderParams where
  ringCapacity : Nat
  preCount : Nat
  postCount : Nat
  triggers : KindSet
  readBurst : Nat
  burstYield : Bool
  readTimeout : Nat
  scrubPeriod : Nat
  deriving DecidableEq, Repr

/-- One copy of the six sets (R120). -/
structure Params where
  link : LinkParams
  wheel : WheelParams
  blend : BlendParams
  slide : SlideParams
  dbrake : DbrakeParams
  recorder : RecorderParams
  deriving DecidableEq, Repr

/-- The default Trigger Enable set (07 RECORDER): SLIDE_SUSTAINED 18, AXLE_LOCKED 19,
SHORTFALL_SUSTAINED 7, EMERGENCY_ON 1, NODE_LOST 22, DB_LOST 10, FRAME_STOP 28, HOST_SILENT 3,
ROLL_DETECTED 46, HOST_MARK 47. -/
def defaultTriggers : KindSet := 0x0000C000104C048A#64

/-- The defaults of the six sets (07), with the two RECORDER fields of R130 from the ring's
capacity. -/
def Params.defaults (ringCapacity : Nat) : Params where
  link := ⟨none, 2000, 40, 2, 10, .timer, true, false, 0⟩
  wheel := ⟨.fill none, none, 30, 20, 3000⟩
  blend := ⟨1500, 2000, 30, 1920, 380, 450, 300, 200, 1000, 4500, false, 50, 2000⟩
  slide := ⟨150, 10, 80, 50, 3, 3000, 1000, 20, 14, 5, 10000, 500, 500, 100, 1000⟩
  dbrake := ⟨6, [(0, 0), (300, 0), (1000, 700), (6000, 700), (10000, 450), (16000, 250), (0, 0),
    (0, 0)], 450, 12000000, 9000000, 150, 1500, 2000⟩
  recorder := ⟨ringCapacity, min 200 (ringCapacity / 2), 300, defaultTriggers, 8, true, 100, 60⟩

/-- The Parameter Store (R130). The pending list is kept in the order of the sets, without
duplicates. -/
structure Pst where
  staging : Params
  active : Params
  pendingSets : List ParamSet
  linkOnce : Bool
  wheelOnce : Bool
  deriving DecidableEq, Repr

/-- R130, for a ring of the capacity found in record memory. -/
def Pst.reset (ringCapacity : Nat) : Pst where
  staging := .defaults ringCapacity
  active := .defaults ringCapacity
  pendingSets := []
  linkOnce := false
  wheelOnce := false

/-! ## IRC (08) -/

/-- An entry of the snapshot ring (R135). -/
inductive RingEntry where
  | snapshot (s : Snapshot)
  | gap (first last : Nat)
  deriving DecidableEq, Repr

/-- A position of an incident slot's snapshot list (R141). -/
inductive Position where
  | pending
  | copied (s : Snapshot)
  | missing
  deriving DecidableEq, Repr

/-- The record of an incident (R141). The missing and copied counts are those of its positions. -/
structure Incident where
  number : Nat
  triggerKind : EventKind
  triggerSeq : Nat
  triggerTime : Nat
  triggerSnap : Nat
  secondary : List (EventKind × Nat)
  further : Nat
  pre : Nat
  post : Nat
  positions : List Position
  deriving DecidableEq, Repr

/-- An incident slot (R141): FREE holds nothing, CAPTURING is never protected. -/
inductive Slot where
  | free
  | capturing (i : Incident)
  | frozen (protected' : Bool) (i : Incident)
  deriving DecidableEq, Repr

/-- The damage marks: the marked places of each collection, rising (R132). -/
structure Marks where
  ring : List Nat
  log : List Nat
  slots : PerSlot (List Nat)
  deriving DecidableEq, Repr

/-- The Incident Recorder with the record memory it owns (R132, R150). Entries stand oldest first;
`ringPlace` and `logPlace` are the entry places of the oldest. -/
structure Irc where
  timeTag : Nat
  lastSnap : Nat
  lastLog : Nat
  lastIncident : Nat
  ring : List RingEntry
  ringCapacity : Nat
  ringPlace : Nat
  log : List LogEntry
  logPlace : Nat
  overwrites : Nat
  highSnap : Nat
  highLog : Nat
  slots : PerSlot Slot
  marks : Marks
  deriving DecidableEq, Repr

/-- The marks of a memory without damage. -/
def Marks.none : Marks := ⟨[], [], .fill []⟩

/-- Record memory taken up as empty (R132), with the time tag of a reset (R133) and no place marked
(log 39). -/
def Irc.empty : Irc where
  timeTag := 0
  lastSnap := 0
  lastLog := 0
  lastIncident := 0
  ring := []
  ringCapacity := 1024
  ringPlace := 0
  log := []
  logPlace := 0
  overwrites := 0
  highSnap := 0
  highLog := 0
  slots := .fill .free
  marks := .none

/-! ## RMA (09) -/

/-- The transactions of record memory (R152). -/
inductive MemWork where
  | snapshotWrite | logWrite | copy | scrub | readItem
  deriving DecidableEq, Repr

/-- A transaction in progress, with the clock value of its nominal end. -/
structure Busy where
  work : MemWork
  doneAt : Nat
  deriving DecidableEq, Repr

/-- A burst held by the readout (R161). `yielded` says that waiting capture work took the memory at the
last item boundary and keeps it (R153). -/
structure Burst where
  served : Nat
  limit : Nat
  yielded : Bool
  deriving DecidableEq, Repr

/-- What an item of a reply holds (R161 to R163). -/
inductive ItemBody where
  | snapshot (n : Snapshot)
  | gap (first last : Nat)
  | missing (number : Int)
  | event (e : LogEntry)
  deriving DecidableEq, Repr

/-- An item as it is found: its index in its collection, its entry place, what it holds. -/
structure Item where
  index : Nat
  place : Nat
  body : ItemBody
  deriving DecidableEq, Repr

/-- The item being read, as it stood when its read was granted (R161): whether its place then bore a
damage mark, and the item the stride would take next, where there was one. -/
structure Reading where
  item : Item
  damaged : Bool
  next : Option Item
  deriving DecidableEq, Repr

/-- The Record Memory Arbiter (R166). The copy work list is the PENDING positions of the CAPTURING
slot (R156); the readout queue is the waiting reads of the request queue (R159). -/
structure Rma where
  memory : Option Busy
  capture : List Snapshot
  gap : Option (Nat × Nat)
  logBuf : List LogEntry
  scrubPos : Nat
  passTimer : Nat
  lateRaised : Bool
  burst : Option Burst
  reading : Option Reading
  ringCursor : Option Nat
  slotCursors : PerSlot (Option Int)
  logCursor : Option Nat
  deriving DecidableEq, Repr

/-- R166. -/
def Rma.reset : Rma where
  memory := none
  capture := []
  gap := none
  logBuf := []
  scrubPos := 0
  passTimer := 0
  lateRaised := false
  burst := none
  reading := none
  ringCursor := none
  slotCursors := .fill none
  logCursor := none

/-! ## HLP and EVU (11) -/

/-- What a read reads (R159). -/
inductive ReadSource where
  | ring
  | slot (k : SlotId)
  | log
  deriving DecidableEq, Repr

/-- A read whose service has begun (R161): the number of the item to read next, how many entries
have been taken, their bytes, and the incident number for a slot. -/
structure Service where
  next : Int
  taken : Nat
  bytes : List Byte
  incident : Nat
  deriving DecidableEq, Repr

/-- A READ_SNAPSHOTS or READ_EVENTS in the readout queue (R159, R160). `start` is absent for
continue; `service` is absent until service begins. -/
structure ReadReq where
  source : ReadSource
  start : Option Nat
  count : Nat
  stride : Nat
  mask : Byte
  waitTime : Nat
  service : Option Service
  deriving DecidableEq, Repr

/-- What a request of the request queue waits for (R184). -/
inductive WaitFor where
  | axles
  | read (r : ReadReq)
  deriving DecidableEq, Repr

/-- A request executing (R184). -/
structure Waiting where
  tag : Byte
  body : WaitFor
  deriving DecidableEq, Repr

/-- The three sources of the part's records (R185); `resetReply` is the reply of RESET, behind which
nothing is sent (R180). -/
inductive TxSource where
  | reply | resetReply | notice | report
  deriving DecidableEq, Repr

/-- A record to be sent to the host (R192). -/
structure TxRecord where
  source : TxSource
  kind : Byte
  tag : Byte
  payload : List Byte
  deriving DecidableEq, Repr

/-- The record being sent, with the clock value of its end. -/
structure Sending where
  record : TxRecord
  doneAt : Nat
  deriving DecidableEq, Repr

/-- The Host Link Port with the Event Unit (R191). `assembler` is absent in HUNT and the bytes after
the start byte in IN_RECORD. `waiting` holds replies, notices and the REPORT in the order of R185. -/
structure Hlp where
  assembler : Option (List Byte)
  requests : List Waiting
  waiting : List TxRecord
  sending : Option Sending
  framingErrors : Nat
  crcErrors : Nat
  overrunErrors : Nat
  latched : KindSet
  noticeMask : KindSet
  attentionMask : KindSet
  overflow : Bool
  reportDivider : Nat
  deriving DecidableEq, Repr

/-- R191, before the reset's own event is latched. -/
def Hlp.reset : Hlp where
  assembler := none
  requests := []
  waiting := []
  sending := none
  framingErrors := 0
  crcErrors := 0
  overrunErrors := 0
  latched := 0
  noticeMask := 0
  attentionMask := 0
  overflow := false
  reportDivider := 0

/-! ## MDC (10) -/

/-- The Mode Controller (R181). `parkNotWithin` is the count PARK_TIMEOUT carries (R174), `workMode` the
mode as the MDC's work at the last COMPUTE left it, for the snapshot (R134, R167, log 37). -/
structure Mdc where
  mode : Mode
  workMode : Mode
  choice : PeriodChoice
  parkingTime : Nat
  parkNotWithin : Nat
  rollTime : PerAxle Nat
  rollHold : Bool
  deriving DecidableEq, Repr

/-- R181. -/
def Mdc.reset : Mdc where
  mode := .unconfigured
  workMode := .unconfigured
  choice := .frame
  parkingTime := 0
  parkNotWithin := 6
  rollTime := .fill 0
  rollHold := false

/-! ## The part as a whole -/

/-- What began a reset (R180). -/
inductive ResetCause where
  | powerOn | request | input
  deriving DecidableEq, Repr

/-- Whether the part runs (R180): without supply, in reset, or live. -/
inductive PowerPhase where
  | off
  | inReset (c : ResetCause)
  | live
  deriving DecidableEq, Repr

/-- The host link rates of the strap pins (00 Pins). -/
inductive Rate where
  | r115200 | r460800 | r921600 | r1843200
  deriving DecidableEq, Repr

/-- Supply, reset, straps, and the model's clock (log 1): microseconds since the reset's end and the
microseconds within the current millisecond. -/
structure Sys where
  phase : PowerPhase
  resetAsked : Bool
  resetReplySent : Bool
  rate : Rate
  clock : Nat
  subMs : Nat
  deriving DecidableEq, Repr

/-- The whole state: the blocks of 00 Blocks, and the queue of commands not yet taken. -/
structure State where
  pending : List Instr
  sys : Sys
  diu : Diu
  ble : Ble
  dbs : Dbs
  asu : Asu
  wsc : PerAxle WscAxle
  nlc : Nlc
  pst : Pst
  irc : Irc
  rma : Rma
  hlp : Hlp
  mdc : Mdc
  deriving DecidableEq, Repr

/-- Reasons to stop with a fault. There is none: no rule of the manual names a condition that stops
the part, so no meaning raises a fault. -/
inductive Fault where
  deriving DecidableEq, Repr

/-- Reasons to give no meaning to a command. -/
inductive Refusal where
  /-- Raised by an arm of `exec` whose command has no meaning yet; safe. No arm is left that raises
  it. -/
  | notModelled (mnemonic : String)
  deriving DecidableEq, Repr

/-- Every block at its reset values on the given record memory, before the reset's own events are
raised (R180). -/
def State.blank (irc : Irc) (rate : Rate) (emergInput : Bool) : State where
  pending := []
  sys := ⟨.live, false, false, rate, 0, 0⟩
  diu := { Diu.reset with emergInput := emergInput }
  ble := .reset
  dbs := .reset
  asu := .reset
  wsc := .fill .reset
  nlc := .reset
  pst := .reset irc.ringCapacity
  irc := irc
  rma := .reset
  hlp := .reset
  mdc := .reset

/-- The POWER_ON entry of a first power-on (R180). -/
def powerOnEntry : LogEntry := ⟨1, 0, .powerOn, .absent, none, none, false⟩

/-- The machine right after a power-on reset on a record memory that has never held a directory
(R132), straps low, emergency input deasserted: POWER_ON has been raised (R180), so it is latched
(R191) and its log entry is being written (log 3). -/
def State.reset : State :=
  let s := State.blank .empty .r115200 false
  { s with
    irc := { s.irc with lastLog := 1 }
    rma := { s.rma with memory := some ⟨.logWrite, 4⟩, logBuf := [powerOnEntry] }
    hlp := { s.hlp with latched := 1#64 <<< 41 } }

end Machine
end Sys2Proof
end

