-- ==== Sys2Proof/Machine/Operands.lean ====
section
/-! DEFINITION. The wire formats: code values, byte fields, the CRC-16, the layouts of records and
replies (12 Record Layouts), and access to per-axle, per-slot and per-node values. -/

namespace Sys2Proof

/-! ## Axles, incident slots and nodes -/

/-- The axles in the order of their numbers. -/
def Axle.all : List Axle := [.a1, .a2, .a3, .a4, .a5, .a6]

/-- 00 Numbering. -/
def Axle.number : Axle → Nat
  | .a1 => 1 | .a2 => 2 | .a3 => 3 | .a4 => 4 | .a5 => 5 | .a6 => 6

/-- The axle of a number, if it is one. -/
def Axle.ofNumber? : Nat → Option Axle
  | 1 => some .a1 | 2 => some .a2 | 3 => some .a3 | 4 => some .a4 | 5 => some .a5 | 6 => some .a6
  | _ => none

/-- The value of one axle. -/
def PerAxle.get {α : Type} (p : PerAxle α) : Axle → α
  | .a1 => p.a1 | .a2 => p.a2 | .a3 => p.a3 | .a4 => p.a4 | .a5 => p.a5 | .a6 => p.a6

/-- The six values from a function of the axle. -/
def PerAxle.of {α : Type} (f : Axle → α) : PerAxle α :=
  ⟨f .a1, f .a2, f .a3, f .a4, f .a5, f .a6⟩

/-- The value of one axle replaced. -/
def PerAxle.set {α : Type} (p : PerAxle α) (a : Axle) (x : α) : PerAxle α :=
  match a with
  | .a1 => { p with a1 := x } | .a2 => { p with a2 := x } | .a3 => { p with a3 := x }
  | .a4 => { p with a4 := x } | .a5 => { p with a5 := x } | .a6 => { p with a6 := x }

/-- The value of one axle changed. -/
def PerAxle.modify {α : Type} (p : PerAxle α) (a : Axle) (f : α → α) : PerAxle α :=
  p.set a (f (p.get a))

/-- Every value changed. -/
def PerAxle.map {α β : Type} (p : PerAxle α) (f : α → β) : PerAxle β :=
  ⟨f p.a1, f p.a2, f p.a3, f p.a4, f p.a5, f p.a6⟩

/-- The values in axle order. -/
def PerAxle.toList {α : Type} (p : PerAxle α) : List α := [p.a1, p.a2, p.a3, p.a4, p.a5, p.a6]

/-- The sum over the axles. -/
def PerAxle.sum (p : PerAxle Nat) : Nat := p.a1 + p.a2 + p.a3 + p.a4 + p.a5 + p.a6

/-- The incident slots in the order of their numbers. -/
def SlotId.all : List SlotId := [.s1, .s2, .s3, .s4]

/-- 00 Numbering. -/
def SlotId.number : SlotId → Nat
  | .s1 => 1 | .s2 => 2 | .s3 => 3 | .s4 => 4

/-- The incident slot of a number, if it is one. -/
def SlotId.ofNumber? : Nat → Option SlotId
  | 1 => some .s1 | 2 => some .s2 | 3 => some .s3 | 4 => some .s4 | _ => none

/-- The value of one incident slot. -/
def PerSlot.get {α : Type} (p : PerSlot α) : SlotId → α
  | .s1 => p.s1 | .s2 => p.s2 | .s3 => p.s3 | .s4 => p.s4

/-- The value of one incident slot replaced. -/
def PerSlot.set {α : Type} (p : PerSlot α) (k : SlotId) (x : α) : PerSlot α :=
  match k with
  | .s1 => { p with s1 := x } | .s2 => { p with s2 := x }
  | .s3 => { p with s3 := x } | .s4 => { p with s4 := x }

/-- Every value changed. -/
def PerSlot.map {α β : Type} (p : PerSlot α) (f : α → β) : PerSlot β :=
  ⟨f p.s1, f p.s2, f p.s3, f p.s4⟩

/-- Node addresses (00 The outside of the part). -/
def Node.address : Node → Nat
  | .axle a => a.number
  | .air => 8
  | .db => 9

/-- The node of an address, if there is one. -/
def Node.ofAddress? (n : Nat) : Option Node :=
  match n with
  | 8 => some .air
  | 9 => some .db
  | n => (Axle.ofNumber? n).map .axle

/-- The nodes in the order of their addresses. -/
def Node.all : List Node := Axle.all.map .axle ++ [.air, .db]

/-! ## Codes (R192): an enumeration counts from 0 in the order of its listing -/

/-- R192. -/
def Mode.code : Mode → Nat
  | .unconfigured => 0 | .ready => 1 | .running => 2 | .stopped => 3 | .parking => 4 | .parked => 5
  | .unparking => 6

/-- R192. -/
def Silence.code : Silence → Nat
  | .normal => 0 | .silentHold => 1 | .silentFallback => 2

/-- R192, R196. -/
def LatchCause.code : LatchCause → Nat
  | .flag => 0 | .input => 1 | .silence => 2

/-- R192. -/
def DbState.code : DbState → Nat
  | .off => 0 | .exciting => 1 | .available => 2 | .cool => 3 | .lost => 4 | .rest => 5

/-- R192, in the order of R46. -/
def DbLostCause.code : DbLostCause → Nat
  | .node => 0 | .sensorFault => 1 | .valveFault => 2 | .readyDropped => 3

/-- R192: NORMAL is 0 and ISOLATED 4. -/
def SlideState.code : SlideState → Nat
  | .normal => 0 | .relief => 1 | .dump => 2 | .recover => 3 | .isolated => 4

/-- R192, R196. -/
def IsoCause.code : IsoCause → Nat
  | .node => 0 | .sensor => 1 | .cutout => 2

/-- R196. -/
def Transaction.code : Transaction → Nat
  | .axlePoll => 0 | .axleCmd => 1 | .airPoll => 2 | .airCmd => 3 | .dbPoll => 4 | .dbCmd => 5
  | .compute => 6

/-- R196. -/
def Transaction.ofCode? : Nat → Option Transaction
  | 0 => some .axlePoll | 1 => some .axleCmd | 2 => some .airPoll | 3 => some .airCmd
  | 4 => some .dbPoll | 5 => some .dbCmd | 6 => some .compute | _ => none

/-- R192: line A is 0 and line B 1. -/
def Line.code : Line → Nat
  | .a => 0 | .b => 1

/-- R196. -/
def AreaId.code : AreaId → Nat
  | .a => 0 | .b => 1

/-- R196. -/
def AreaId.ofCode? : Nat → Option AreaId
  | 0 => some .a | 1 => some .b | _ => none

/-- R195: codes 1..47 in the order of the owner table of R186. -/
def EventKind.code : EventKind → Nat
  | .emergencyOn => 1 | .emergencyReset => 2 | .hostSilent => 3 | .hostResumed => 4
  | .shortfallOn => 5 | .shortfallOff => 6 | .shortfallSustained => 7
  | .dbAvailable => 8 | .dbExciteFail => 9 | .dbLost => 10 | .dbCoolOn => 11 | .dbCoolOff => 12
  | .refDegraded => 13
  | .slideOnset => 14 | .dumpOpen => 15 | .dumpLimit => 16 | .slideEnd => 17
  | .slideSustained => 18 | .axleLocked => 19 | .axleIsolated => 20 | .axleRestored => 21
  | .nodeLost => 22 | .nodeRestored => 23 | .statusSet => 24 | .loopFail => 25 | .lateReply => 26
  | .frameOverrun => 27 | .frameStop => 28
  | .configCommit => 29
  | .incidentOpen => 30 | .incidentFrozen => 31 | .incidentIncomplete => 32 | .incidentLost => 33
  | .incidentReplaced => 34 | .logWrap => 35 | .captureMissed => 36 | .scrubCorrected => 37
  | .memoryFault => 38 | .scrubLate => 39 | .timeWrap => 40
  | .powerOn => 41 | .softReset => 42 | .parked => 43 | .parkTimeout => 44 | .unparked => 45
  | .rollDetected => 46 | .hostMark => 47

/-- The five kinds that are never triggers (R140). -/
def EventKind.ofIncident : EventKind → Bool
  | .incidentOpen | .incidentFrozen | .incidentIncomplete | .incidentLost | .incidentReplaced => true
  | _ => false

/-- Bit n of a set of event kinds stands for kind code n (R192). -/
def EventKind.bit (k : EventKind) : KindSet := 1#64 <<< k.code

/-- Whether the kind is in the set. -/
def EventKind.mem (k : EventKind) (m : KindSet) : Bool := m.getLsbD k.code

/-- The bits that stand for no kind are clear: 0 and 48..63 (R192). -/
def kindSetOk (m : KindSet) : Bool := m &&& 0xFFFF000000000001#64 == 0

/-- The result codes (11 Result codes). -/
inductive Result where
  | ok | done | pending | clamped | busy | queueFull | unknown | length | range | state
  | notConfigured | notAtRest | inUse | invalid | gone | timeout
  deriving DecidableEq, Repr

/-- R195. -/
def Result.code : Result → Byte
  | .ok => 0 | .done => 1 | .pending => 2 | .clamped => 3 | .busy => 4 | .queueFull => 5
  | .unknown => 6 | .length => 7 | .range => 8 | .state => 9 | .notConfigured => 10
  | .notAtRest => 11 | .inUse => 12 | .invalid => 13 | .gone => 14 | .timeout => 15

namespace Machine

/-- The value of one node. -/
def PerNode.get {α : Type} (p : PerNode α) : Node → α
  | .axle a => p.axles.get a
  | .air => p.air
  | .db => p.db

/-- The value of one node replaced. -/
def PerNode.set {α : Type} (p : PerNode α) (n : Node) (x : α) : PerNode α :=
  match n with
  | .axle a => { p with axles := p.axles.set a x }
  | .air => { p with air := x }
  | .db => { p with db := x }

/-- The six sets in the order of their codes (R192). -/
def ParamSet.all : List ParamSet := [.link, .wheel, .blend, .slide, .dbrake, .recorder]

/-- R192. -/
def ParamSet.code : ParamSet → Nat
  | .link => 0 | .wheel => 1 | .blend => 2 | .slide => 3 | .dbrake => 4 | .recorder => 5

/-- R192. -/
def ParamSet.ofCode? : Nat → Option ParamSet
  | 0 => some .link | 1 => some .wheel | 2 => some .blend | 3 => some .slide | 4 => some .dbrake
  | 5 => some .recorder | _ => none

/-- The bit map of a list of sets (R192). -/
def setMap (l : List ParamSet) : Nat :=
  ParamSet.all.foldl (fun n p => if l.contains p then n + 2 ^ p.code else n) 0

/-- R192. -/
def RetryPolicy.code : RetryPolicy → Nat
  | .none => 0 | .same => 1 | .alternate => 2 | .sameThenAlternate => 3

/-- R192. -/
def StartSource.code : StartSource → Nat
  | .timer => 0 | .sync => 1 | .syncThenTimer => 2

/-- R192, in the order of R116. -/
def Outcome.code : Outcome → Nat
  | .notRun => 0 | .ok => 1 | .okAfterRetry => 2 | .failed => 3 | .skipped => 4

/-- R192, in the order of R116. -/
def FailCause.code : FailCause → Nat
  | .noReply => 1 | .messageError => 2 | .echo => 3 | .status => 4

/-- The last failure cause as STATUS_READ shows it: 0 is absent (log 31). -/
def lastCauseCode : Option FailCause → Nat
  | none => 0
  | some c => c.code

/-! ## Byte fields: multi-byte fields are big-endian -/

/-- A flag as 1 or 0 (R192). -/
def bit (b : Bool) : Nat := if b then 1 else 0

/-- The low `n` bytes of a number, high byte first. -/
def be : Nat → Nat → List Byte
  | 0, _ => []
  | n + 1, v => BitVec.ofNat 8 (v / 256 ^ n) :: be n v

/-- A signed number in `n` bytes, two's complement. -/
def beInt (n : Nat) (v : Int) : List Byte := be n (v % (256 ^ n : Nat)).toNat

/-- The number big-endian bytes stand for. -/
def ofBe (l : List Byte) : Nat := l.foldl (fun n b => n * 256 + b.toNat) 0

/-- The `n` bytes of a payload from an offset. -/
def field (p : List Byte) (offset n : Nat) : List Byte := (p.drop offset).take n

/-- One byte of a payload. -/
def byteAt (p : List Byte) (offset : Nat) : Byte := p.getD offset 0

/-- The 8-byte values of a payload. -/
def words : List Byte → List Word64
  | a :: b :: c :: d :: e :: f :: g :: h :: rest =>
    BitVec.ofNat 64 (ofBe [a, b, c, d, e, f, g, h]) :: words rest
  | _ => []

/-! ## CRC-16: x^16 + x^12 + x^5 + 1, initial value 0xFFFF (11, R194) -/

/-- One bit of the CRC. -/
def crcBit (c : BitVec 16) : BitVec 16 :=
  if c.msb then (c <<< 1) ^^^ 0x1021#16 else c <<< 1

/-- One byte of the CRC, high bit first. -/
def crcByte (c : BitVec 16) (b : Byte) : BitVec 16 :=
  crcBit (crcBit (crcBit (crcBit (crcBit (crcBit (crcBit (crcBit
    (c ^^^ (b.zeroExtend 16 <<< 8)))))))))

/-- The CRC of a byte string. -/
def crc16 (l : List Byte) : BitVec 16 := l.foldl crcByte 0xFFFF#16

/-- The CRC as it is sent, high byte first. -/
def crcBytes (l : List Byte) : List Byte := be 2 (crc16 l).toNat

/-! ## Node link records (R194) -/

/-- The kind nibble of a request. -/
def requestKind : Transaction → Nat := Transaction.code

/-- The expected reply: its kind nibble and its payload length. COMPUTE has none. -/
def expectedReply : Transaction → Nat × Nat
  | .axlePoll => (8, 3)
  | .airPoll => (9, 13)
  | .dbPoll => (10, 14)
  | .axleCmd | .airCmd | .dbCmd => (11, 1)
  | .compute => (0, 0)

/-- A node link record from its fields. -/
def nodeRecord (address kind seq : Nat) (payload : List Byte) : List Byte :=
  let body := BitVec.ofNat 8 address :: BitVec.ofNat 8 (kind * 16 + seq % 16)
    :: BitVec.ofNat 8 payload.length :: payload
  0x5A#8 :: (body ++ crcBytes body)

/-- The fields of a node link record whose start byte, length and CRC are good. -/
structure NodeReply where
  address : Nat
  kind : Nat
  seq : Nat
  payload : List Byte
  deriving DecidableEq, Repr

/-- Reads a node link record; nothing where start byte, length or CRC is in error. -/
def parseNode : List Byte → Option NodeReply
  | start :: address :: ks :: len :: rest =>
    if start = 0x5A#8 && rest.length = len.toNat + 2
        && crcBytes (address :: ks :: len :: rest.take len.toNat) = rest.drop len.toNat then
      some ⟨address.toNat, ks.toNat / 16, ks.toNat % 16, rest.take len.toNat⟩
    else none
  | _ => none

/-- The status word of a taken reply: the last byte of every reply's payload (R194). -/
def replyStatus (payload : List Byte) : Status := payload.getLastD 0

/-- SENSOR_FAULT of a status word (R192). -/
def sensorFault (w : Status) : Bool := w.getLsbD 0

/-- VALVE_FAULT of a status word (R192). -/
def valveFault (w : Status) : Bool := w.getLsbD 1

/-! ## Schedule slot descriptors (R196) -/

/-- The 8 bytes of a descriptor as one number. -/
def SlotDesc.encode (d : SlotDesc) : Word64 :=
  BitVec.ofNat 64 (ofBe ([BitVec.ofNat 8 d.kind.code,
    BitVec.ofNat 8 (match d.node with | none => 0 | some n => n.address)]
    ++ be 2 d.interval
    ++ [BitVec.ofNat 8 (d.line.code + 2 * bit d.retryOnStatus + 4 * bit d.parkActive
      + 8 * bit d.stopOnError + 16 * d.policy.code), d.ignore, 0, 0]))

/-- The retry policy of bits 4..5. -/
def RetryPolicy.ofBits (b : Byte) : RetryPolicy :=
  match b.getLsbD 4, b.getLsbD 5 with
  | false, false => .none
  | true, false => .same
  | false, true => .alternate
  | true, true => .sameThenAlternate

/-- A node fits a transaction kind (R102): axle transactions go to axle nodes, air ones to the air
node, dynamic brake ones to the dynamic brake node. -/
def nodeFits : Transaction → Node → Bool
  | .axlePoll, .axle _ | .axleCmd, .axle _ | .airPoll, .air | .airCmd, .air
  | .dbPoll, .db | .dbCmd, .db => true
  | _, _ => false

/-! ## Event entries (R196) -/

/-- The subject's type and value. -/
def Subject.codes : Subject → Nat × Nat
  | .absent => (0, 0)
  | .axle a => (1, a.number)
  | .node n => (2, n.address)
  | .schedSlot i => (3, i)
  | .incidentSlot k => (4, k.number)

/-- An event value in 4 bytes, 0 when absent; one above 2,147,483,647 gives its low 32 bits (log 66). -/
def valueBytes (v : Option Int) : List Byte := beInt 4 (v.getD 0)

/-- The 20-byte event entry. -/
def eventBytes (e : LogEntry) (gapMark damaged : Bool) : List Byte :=
  be 4 e.seq ++ be 4 e.time ++ be 1 e.kind.code ++ be 1 (Subject.codes e.subject).1
    ++ be 1 (Subject.codes e.subject).2
    ++ be 1 (bit e.value1.isSome + 2 * bit e.value2.isSome + 4 * bit gapMark + 8 * bit damaged)
    ++ valueBytes e.value1 ++ valueBytes e.value2

/-! ## Snapshots as read out (R196) -/

/-- The type, flags and number that begin a ring entry or slot position; a number below 1 in two's
complement (log 42). -/
def itemHead (type : Nat) (damaged : Bool) (number : Int) : List Byte :=
  be 1 type ++ be 1 (bit damaged) ++ beInt 4 number

/-- The 12 bytes of one axle of a snapshot. -/
def snapAxleBytes (x : SnapAxle) : List Byte :=
  be 2 x.speed ++ be 1 x.slide.code
    ++ be 1 (bit x.fresh + 2 * bit x.dumpOpen + 4 * bit x.measured.isSome)
    ++ be 2 x.ceiling ++ be 2 x.command ++ be 2 x.target ++ be 2 (x.measured.getD 0)

/-- The masked axles' bytes, in axle order. -/
def maskedAxles (mask : Byte) (p : PerAxle SnapAxle) : List Byte :=
  Axle.all.flatMap fun a => if mask.getLsbD (a.number - 1) then snapAxleBytes (p.get a) else []

/-- A snapshot as read out. -/
def snapshotBytes (mask : Byte) (damaged : Bool) (n : Snapshot) : List Byte :=
  itemHead 0 damaged n.number ++ be 4 n.frame ++ be 4 n.time ++ be 1 n.mode.code ++ be 2 n.dReq
    ++ be 2 n.dEff
    ++ be 1 (bit n.latch + 2 * bit n.degraded + 4 * bit n.shortfall + 16 * n.silence.code)
    ++ be 2 n.vRef ++ be 1 n.dbState.code ++ be 3 n.heat ++ be 2 n.eRepTotal ++ be 1 n.area.code
    ++ [mask] ++ maskedAxles mask n.axles

/-- A GAP as read out: 10 bytes. -/
def gapBytes (damaged : Bool) (first last : Nat) : List Byte := itemHead 1 damaged first ++ be 4 last

/-- A MISSING position as read out: 6 bytes. -/
def missingBytes (damaged : Bool) (number : Int) : List Byte := itemHead 2 damaged number

/-- The number of axles in a mask. -/
def maskCount (mask : Byte) : Nat := Axle.all.countP fun a => mask.getLsbD (a.number - 1)

/-- The size of a snapshot as read out (R196). -/
def snapshotSize (mask : Byte) : Nat := 30 + 12 * maskCount mask

/-- A read reply: result, number, entry count, entries (R196). -/
def readReply (r : Result) (number : Nat) (taken : Nat) (entries : List Byte) : List Byte :=
  r.code :: (be 4 number ++ be 1 taken ++ entries)

end Machine
end Sys2Proof
end

