-- ==== Sys2Proof/Machine/Ops.lean ====
section
/-! DEFINITION. The shared operations: one update per block, the transmitter and the places of the host
link (11), raising an event with its log entry, notice and incident (08, 11), the admission of a request
(R183), and record memory's places and damage marks (R132, R157). -/

namespace Sys2Proof.Machine

/-! ## One update per block -/

/-- Changes the DIU. -/
def State.onDiu (f : Diu → Diu) (s : State) : State := { s with diu := f s.diu }
/-- Changes the BLE. -/
def State.onBle (f : Ble → Ble) (s : State) : State := { s with ble := f s.ble }
/-- Changes the DBS. -/
def State.onDbs (f : Dbs → Dbs) (s : State) : State := { s with dbs := f s.dbs }
/-- Changes the ASU. -/
def State.onAsu (f : Asu → Asu) (s : State) : State := { s with asu := f s.asu }
/-- Changes the WSC. -/
def State.onWsc (f : PerAxle WscAxle → PerAxle WscAxle) (s : State) : State :=
  { s with wsc := f s.wsc }
/-- Changes the NLC. -/
def State.onNlc (f : Nlc → Nlc) (s : State) : State := { s with nlc := f s.nlc }
/-- Changes the PST. -/
def State.onPst (f : Pst → Pst) (s : State) : State := { s with pst := f s.pst }
/-- Changes the IRC and the record memory it owns. -/
def State.onIrc (f : Irc → Irc) (s : State) : State := { s with irc := f s.irc }
/-- Changes the RMA. -/
def State.onRma (f : Rma → Rma) (s : State) : State := { s with rma := f s.rma }
/-- Changes the HLP and EVU. -/
def State.onHlp (f : Hlp → Hlp) (s : State) : State := { s with hlp := f s.hlp }
/-- Changes the MDC. -/
def State.onMdc (f : Mdc → Mdc) (s : State) : State := { s with mdc := f s.mdc }
/-- Changes supply, reset and clock. -/
def State.onSys (f : Sys → Sys) (s : State) : State := { s with sys := f s.sys }

/-- Applies `f` once for each axle in the order of their numbers. -/
def forAxles (f : Axle → State → State) (s : State) : State :=
  f .a6 (f .a5 (f .a4 (f .a3 (f .a2 (f .a1 s)))))

/-- A list folded into the state, first element first. -/
def forEach {α : Type} (f : α → State → State) : List α → State → State
  | [], s => s
  | x :: rest, s => forEach f rest (f x s)

/-! ## The transmitter and the places of the host link (R183, R185) -/

/-- Host link rates (00 Pins). -/
def Rate.bitsPerSecond : Rate → Nat
  | .r115200 => 115200 | .r460800 => 460800 | .r921600 => 921600 | .r1843200 => 1843200

/-- A record as it is sent: start byte, length, kind, tag, payload and the CRC of what stands between the
start byte and itself (R192). -/
def TxRecord.bytes (r : TxRecord) : List Byte :=
  let body := BitVec.ofNat 8 r.payload.length :: r.kind :: r.tag :: r.payload
  0xA5#8 :: (body ++ crcBytes body)

/-- The time a record takes on the line: 10 bits for each of its bytes, rounded up (log 29). -/
def sendTime (rate : Rate) (r : TxRecord) : Nat :=
  (r.bytes.length * 10 * 1000000 + rate.bitsPerSecond - 1) / rate.bitsPerSecond

/-- R185: an idle transmitter starts the oldest waiting record; nothing is sent behind the reply of
RESET (R180). -/
def startTx (s : State) : State :=
  if s.sys.resetReplySent then s
  else
    match s.hlp.sending, s.hlp.waiting with
    | none, r :: rest =>
      s.onHlp fun h =>
        { h with sending := some ⟨r, s.sys.clock + sendTime s.sys.rate r⟩
                 waiting := rest }
    | _, _ => s

/-- Places a record behind those waiting. -/
def placeRecord (r : TxRecord) (s : State) : State :=
  startTx (s.onHlp fun h => { h with waiting := h.waiting ++ [r] })

/-- A reply fills its place (R184). -/
def placeReply (kind tag : Byte) (payload : List Byte) (s : State) : State :=
  placeRecord ⟨.reply, kind, tag, payload⟩ s

/-- Whether a record holds a reply place. -/
def TxSource.isReply : TxSource → Bool
  | .reply | .resetReply => true
  | _ => false

/-- The records of one source that wait. -/
def waitingOf (src : TxSource) (h : Hlp) : Nat := h.waiting.countP fun r => r.source == src

/-- The reply places in use (R183): executing requests, replies waiting, a reply being sent. -/
def placesUsed (h : Hlp) : Nat :=
  h.requests.length + (h.waiting.countP fun r => r.source.isReply)
    + (match h.sending with | some x => bit x.record.source.isReply | none => 0)

/-- A count of 16 bits that saturates (R182). -/
def satInc (n : Nat) : Nat := min 65535 (n + 1)

/-! ## Raising an event (R137, R186, R187) -/

/-- The log gap mark goes on the entry that is then the oldest (R155). -/
def markOldest : List LogEntry → List LogEntry
  | [] => []
  | e :: rest => { e with gapMark := true } :: rest

/-- R155: an entry joins the log buffer; a full buffer drops its oldest. -/
def joinLogBuffer (e : LogEntry) (buf : List LogEntry) : List LogEntry :=
  if buf.length < 16 then buf ++ [e] else markOldest (buf.drop 1 ++ [e])

/-- R149: the log emptied, with its damage marks and its overwrite count. -/
def emptyLog (c : Irc) : Irc :=
  { c with log := [], logPlace := 0, overwrites := 0, marks := { c.marks with log := [] } }

/-- R149, R128: the ring emptied, with its damage marks. -/
def emptyRing (c : Irc) : Irc :=
  { c with ring := [], ringPlace := 0, marks := { c.marks with ring := [] } }

/-- R137: assigns the next log sequence; past the last, the log is emptied and 1 assigned. -/
def assignLog (c : Irc) : Irc :=
  if c.lastLog < 4294967295 then { c with lastLog := c.lastLog + 1 }
  else { emptyLog c with lastLog := 1 }

/-- R187: a notice is placed, or dropped with the overflow flag set. -/
def placeNotice (e : LogEntry) (s : State) : State :=
  if waitingOf .notice s.hlp < 8 then
    placeRecord ⟨.notice, 0x40, 0, eventBytes e false false⟩ s
  else s.onHlp fun h => { h with overflow := true }

/-- R186: the kind is latched, and a notice placed if the notice mask holds the kind. -/
def latchEvent (e : LogEntry) (s : State) : State :=
  let s := s.onHlp fun h => { h with latched := h.latched ||| e.kind.bit }
  if e.kind.mem s.hlp.noticeMask then placeNotice e s else s

/-- An event handed to the log and to the EVU, before any trigger (R137, R186). -/
def raiseBase (k : EventKind) (subject : Subject) (v1 v2 : Option Int) (s : State) : State :=
  let c := assignLog s.irc
  let e : LogEntry := ⟨c.lastLog, c.timeTag, k, subject, v1, v2, false⟩
  latchEvent e
    ((s.onIrc fun _ => c).onRma fun m => { m with logBuf := joinLogBuffer e m.logBuf })

/-- An attention-masked kind is latched (R186). -/
def attention (h : Hlp) : Bool := h.latched &&& h.attentionMask != 0

/-- The attention output (R186): asserted while an attention-masked kind is latched, and released during
reset and without supply. -/
def attentionOutput (s : State) : Bool := s.sys.phase == .live && attention s.hlp

/-! ## Incident slots (R141 to R146) -/

/-- The first slot, in the order of numbers, that meets a condition. -/
def findSlot (p : Slot → Bool) (t : PerSlot Slot) : Option SlotId :=
  SlotId.all.find? fun k => p (t.get k)

/-- Whether a slot is CAPTURING. -/
def Slot.isCapturing : Slot → Bool
  | .capturing _ => true
  | _ => false

/-- Whether a slot is FREE. -/
def Slot.isFree : Slot → Bool
  | .free => true
  | _ => false

/-- The CAPTURING slot, at most one (R142), with its record. -/
def capturing (c : Irc) : Option (SlotId × Incident) :=
  match findSlot Slot.isCapturing c.slots with
  | some k =>
    match c.slots.get k with
    | .capturing i => some (k, i)
    | _ => none
  | none => none

/-- A slot's content replaced. -/
def Irc.setSlot (k : SlotId) (x : Slot) (c : Irc) : Irc := { c with slots := c.slots.set k x }

/-- R142: how far an incident number lies back from the last one, through the wrap. -/
def ageOf (last number : Nat) : Nat := (last + 4294967295 - number) % 4294967295

/-- R142: the FROZEN unprotected slot whose incident was opened earliest. -/
def oldestUnprotected (c : Irc) : Option SlotId :=
  let cand : List (SlotId × Nat) := SlotId.all.filterMap fun k =>
    match c.slots.get k with
    | .frozen false i => some (k, ageOf c.lastIncident i.number)
    | _ => none
  (cand.find? fun x => cand.all fun y => y.2 ≤ x.2).map (·.1)

/-- R142: the slot to open an incident in. -/
def chooseSlot (c : Irc) : Option SlotId :=
  match findSlot Slot.isFree c.slots with
  | some k => some k
  | none => oldestUnprotected c

/-- The first number of a ring entry. -/
def RingEntry.first : RingEntry → Nat
  | .snapshot n => n.number
  | .gap a _ => a

/-- The last number of a ring entry. -/
def RingEntry.last : RingEntry → Nat
  | .snapshot n => n.number
  | .gap _ b => b

/-- Whether a GAP of the ring covers the number. -/
def gapCovers (ring : List RingEntry) (n : Int) : Bool :=
  ring.any fun e =>
    match e with
    | .gap a b => (a : Int) ≤ n && n ≤ b
    | _ => false

/-- The number is below the oldest entry of a ring that is not empty. -/
def belowOldest (ring : List RingEntry) (n : Int) : Bool :=
  match ring with
  | [] => false
  | e :: _ => n < e.first

/-- The number of a snapshot that waits to be written, or of one lost that no GAP tells of yet. -/
def unwritten (m : Rma) (n : Int) : Bool :=
  (m.capture.any fun x => (x.number : Int) == n)
    || (match m.gap with | some (a, b) => (a : Int) ≤ n && n ≤ b | none => false)

/-- R143, R156: a number that a copy can no longer find. -/
def lostFromRing (ring : List RingEntry) (n : Int) : Bool := belowOldest ring n || gapCovers ring n

/-- R143: which pre-part positions are MISSING at the opening. -/
def missingAtOpening (c : Irc) (m : Rma) (n : Int) : Bool :=
  n < 1 || lostFromRing c.ring n || (c.ring.isEmpty && !unwritten m n)

/-- The positions from one number on: PENDING, or MISSING where the condition holds. -/
def openPositions (missing : Int → Bool) : Nat → Int → List Position
  | 0, _ => []
  | k + 1, n => (if missing n then .missing else .pending) :: openPositions missing k (n + 1)

/-- The number of a window's first position (R143). -/
def Incident.firstNumber (i : Incident) : Int := (i.triggerSnap : Int) - i.pre + 1

/-- The PENDING positions that meet a condition become MISSING. -/
def loseFrom (p : Int → Bool) : Int → List Position → List Position
  | _, [] => []
  | n, .pending :: rest => (if p n then .missing else .pending) :: loseFrom p (n + 1) rest
  | n, x :: rest => x :: loseFrom p (n + 1) rest

/-- Whether any position is PENDING. -/
def anyPending (l : List Position) : Bool := l.any (· == .pending)

/-- R141. -/
def missingCount (i : Incident) : Nat := i.positions.countP (· == .missing)

/-- Whether a position is COPIED. -/
def Position.isCopied : Position → Bool
  | .copied _ => true
  | _ => false

/-- R141. -/
def copiedCount (i : Incident) : Nat := i.positions.countP Position.isCopied

/-- R145: a CAPTURING slot without a PENDING position freezes. -/
def freezeIfDone (s : State) : State :=
  match capturing s.irc with
  | some (k, i) =>
    if anyPending i.positions then s
    else
      let s := s.onIrc (Irc.setSlot k (.frozen false i))
      if missingCount i = 0 then
        raiseBase .incidentFrozen (.incidentSlot k) (some i.number) (some (copiedCount i)) s
      else
        raiseBase .incidentIncomplete (.incidentSlot k) (some i.number) (some (missingCount i)) s
  | none => s

/-- The PENDING positions of the CAPTURING slot that meet a condition are resolved MISSING (R146,
R154 to R156), and the slot freezes if none is left. -/
def cutWindow (p : Int → Bool) (s : State) : State :=
  match capturing s.irc with
  | some (k, i) =>
    freezeIfDone (s.onIrc (Irc.setSlot k
      (.capturing { i with positions := loseFrom p i.firstNumber i.positions })))
  | none => s

/-- R156: positions whose snapshots have been overwritten, or are covered by a GAP, are MISSING. -/
def resolveLost (s : State) : State := cutWindow (lostFromRing s.irc.ring) s

/-- R144. -/
def addSecondary (k : EventKind) (seq : Nat) (i : Incident) : Incident :=
  if i.secondary.length < 8 then { i with secondary := i.secondary ++ [(k, seq)] }
  else { i with further := satInc i.further }

/-- R142: the next incident number. -/
def nextIncident (last : Nat) : Nat := if last < 4294967295 then last + 1 else 1

/-- R142: the record of a chosen slot that held one is discarded. -/
def discardRecord (k : SlotId) (s : State) : State :=
  match s.irc.slots.get k with
  | .frozen _ i =>
    raiseBase .incidentReplaced (.incidentSlot k) (some i.number) none
      ((s.onIrc (Irc.setSlot k .free)).onRma fun m =>
        { m with slotCursors := m.slotCursors.set k none })
  | _ => s

/-- The record of an incident as it is opened (R142, R143); with the link IDLE every post-part
position is MISSING at once (R146). -/
def openedIncident (k : EventKind) (seq time : Nat) (s : State) : Incident :=
  let r := s.pst.active.recorder
  let snap := s.irc.lastSnap
  { number := nextIncident s.irc.lastIncident
    triggerKind := k
    triggerSeq := seq
    triggerTime := time
    triggerSnap := snap
    secondary := []
    further := 0
    pre := r.preCount
    post := r.postCount
    positions :=
      openPositions (missingAtOpening s.irc s.rma) r.preCount ((snap : Int) - r.preCount + 1)
        ++ openPositions (fun _ => s.nlc.link == .idle) r.postCount ((snap : Int) + 1) }

/-- R142: an incident is opened, or lost. -/
def openIncident (k : EventKind) (seq time : Nat) (s : State) : State :=
  match chooseSlot s.irc with
  | none => raiseBase .incidentLost .absent (some k.code) (some seq) s
  | some slot =>
    let s := discardRecord slot s
    let i := openedIncident k seq time s
    let s := s.onIrc fun c => { c.setSlot slot (.capturing i) with lastIncident := i.number }
    freezeIfDone (raiseBase .incidentOpen (.incidentSlot slot) (some i.number) (some k.code) s)

/-- R140: what the IRC does with a trigger. -/
def takeTrigger (k : EventKind) (seq time : Nat) (s : State) : State :=
  match capturing s.irc with
  | some (slot, i) => s.onIrc (Irc.setSlot slot (.capturing (addSecondary k seq i)))
  | none => openIncident k seq time s

/-- R140. -/
def isTrigger (k : EventKind) (s : State) : Bool :=
  k.mem s.pst.active.recorder.triggers && !k.ofIncident

/-- Raising an event: its log entry and its latching, then its trigger (R137, R140, R186). -/
def raiseEvent (k : EventKind) (subject : Subject) (v1 v2 : Option Int) (s : State) : State :=
  let s := raiseBase k subject v1 v2 s
  if isTrigger k s then takeTrigger k s.irc.lastLog s.irc.timeTag s else s

/-! ## Admission of requests (R183, R184) -/

/-- How the execution of a request ends: with a reply, waiting, or with the reply of RESET. -/
inductive Answer where
  | reply (payload : List Byte)
  | resetReply (payload : List Byte)
  | wait (w : WaitFor)
  deriving DecidableEq, Repr

/-- A reply of the result code alone. -/
def codeOnly (r : Result) : Answer := .reply [r.code]

/-- A request that passes admission is executed; its reply is placed, or it waits (R184). -/
def execute (kind tag : Byte) (body : State → State × Answer) (s : State) : State :=
  match body s with
  | (s, .reply p) => placeReply kind tag p s
  | (s, .resetReply p) =>
    placeRecord ⟨.resetReply, kind, tag, p⟩ (s.onSys fun y => { y with resetAsked := true })
  | (s, .wait w) => s.onHlp fun h => { h with requests := h.requests ++ [⟨tag, w⟩] }

/-- R183: what admission does with a complete record. -/
inductive Admission where
  | ignored
  | discarded
  | refused (r : Result)
  | admitted
  deriving DecidableEq, Repr

/-- R183, in its order; a request after an accepted RESET is discarded without reply (R180). -/
def admission (known lengthOk : Bool) (s : State) : Admission :=
  if s.sys.resetAsked then .ignored
  else if 8 ≤ placesUsed s.hlp then .discarded
  else if 4 ≤ s.hlp.requests.length then .refused .queueFull
  else if !known then .refused .unknown
  else if !lengthOk then .refused .length
  else .admitted

/-- A complete request record, judged for admission and executed (R183, R184). -/
def request (kind tag : Byte) (known lengthOk : Bool) (body : State → State × Answer) (s : State) :
    State :=
  match admission known lengthOk s with
  | .ignored => s
  | .discarded => s.onHlp fun h => { h with overrunErrors := satInc h.overrunErrors }
  | .refused r => placeReply kind tag [r.code] s
  | .admitted => execute kind tag body s

/-! ## Entry places and damage marks (R132, R157) -/

/-- Adds a place to a rising list without duplicates. -/
def insertPlace (p : Nat) : List Nat → List Nat
  | [] => [p]
  | x :: rest => if p < x then p :: x :: rest else if p = x then x :: rest else x :: insertPlace p rest

/-- Adds several places. -/
def insertPlaces (ps l : List Nat) : List Nat := ps.foldl (fun l p => insertPlace p l) l

/-- Takes a place out. -/
def clearPlace (p : Nat) (l : List Nat) : List Nat := l.filter (· != p)

/-- Marks places of a region: 2048 in the ring, 1024 in the log and in each slot (R132). -/
def markPlaces (r : Region) (ps : List Nat) (m : Marks) : Marks :=
  match r with
  | .ring => { m with ring := insertPlaces (ps.filter (· < 2048)) m.ring }
  | .log => { m with log := insertPlaces (ps.filter (· < 1024)) m.log }
  | .slot k => { m with slots := m.slots.set k (insertPlaces (ps.filter (· < 1024)) (m.slots.get k)) }
  | .directory | .spare => m

/-- The entry place of the ring's entry `i`, counted from the oldest. -/
def ringPlaceOf (c : Irc) (i : Nat) : Nat := (c.ringPlace + i) % max 1 c.ringCapacity

/-- The entry place of the log's entry `i`, counted from the oldest. -/
def logPlaceOf (c : Irc) (i : Nat) : Nat := (c.logPlace + i) % 1024

/-- The subject of MEMORY_FAULT and SCRUB_CORRECTED: the incident slot for a slot region (R157). -/
def regionSubject : Region → Subject
  | .slot k => .incidentSlot k
  | _ => .absent

/-- R157: double errors in words of one block. `own` marks the places the reading transaction knows to
contain them; Config says which other places do (log 7). In the directory no mark is set. -/
def doubleErrors (own : Marks → Marks) (block : Nat) (failing : List Nat) (s : State) : State :=
  let r := Config.blockRegion block
  let marks :=
    if r = .directory then s.irc.marks
    else own (failing.foldl (fun m w => markPlaces r (Config.wordPlaces block w) m) s.irc.marks)
  if r ≠ .directory ∧ marks = s.irc.marks then s
  else
    raiseEvent .memoryFault (regionSubject r) (some block) (some failing.length)
      (s.onIrc fun c => { c with marks := marks })

end Sys2Proof.Machine
end

