-- ==== Sys2Proof/Machine/Arbiter.lean ====
section
/-! DEFINITION. The Record Memory Arbiter (09): the capture and log buffers, what each transaction does
at its completion, the service of reads, and the order of grants. -/

namespace Sys2Proof.Machine

/-! ## Writes into the ring and the log -/

/-- R135, R155: an entry written as the ring's newest, over the oldest of a full ring, with the
damage mark of its place cleared. -/
def appendRing (e : RingEntry) (c : Irc) : Irc :=
  if c.ring.length < c.ringCapacity then
    { c with ring := c.ring ++ [e], highSnap := e.last
             marks := { c.marks with ring := clearPlace (ringPlaceOf c c.ring.length) c.marks.ring } }
  else
    { c with ring := c.ring.drop 1 ++ [e], highSnap := e.last, ringPlace := ringPlaceOf c 1
             marks := { c.marks with ring := clearPlace c.ringPlace c.marks.ring } }

/-- R135: a GAP extends the ring's newest entry where that is a GAP its numbers follow at once. -/
def extendsNewest (first : Nat) : List RingEntry → Bool
  | [] => false
  | [.gap _ b] => first == b + 1
  | _ :: rest => extendsNewest first rest

/-- The newest entry, a GAP, with a higher last number. -/
def extendGap (last : Nat) : List RingEntry → List RingEntry
  | [] => []
  | [.gap a _] => [.gap a last]
  | e :: rest => e :: extendGap last rest

/-- R154: a GAP written into the ring. -/
def writeGap (first last : Nat) (c : Irc) : Irc :=
  if extendsNewest first c.ring then
    { c with ring := extendGap last c.ring, highSnap := last
             marks := { c.marks with
               ring := clearPlace (ringPlaceOf c (c.ring.length - 1)) c.marks.ring } }
  else appendRing (.gap first last) c

/-- R154: a snapshot write completes. It writes what is then the oldest of the capture buffer: the gap
record if present, else the oldest snapshot (log 5). -/
def snapshotWritten (s : State) : State :=
  match s.rma.gap with
  | some (a, b) => resolveLost ((s.onIrc (writeGap a b)).onRma fun m => { m with gap := none })
  | none =>
    match s.rma.capture with
    | n :: rest =>
      resolveLost ((s.onIrc (appendRing (.snapshot n))).onRma fun m => { m with capture := rest })
    | [] => s

/-- R138, R155: an entry written as the log's newest, over the oldest of a full log. The overwrite is
counted with the write, before LOG_WRAP is raised (log 49). -/
def appendLog (e : LogEntry) (c : Irc) : Irc :=
  if c.log.length < 1024 then
    { c with log := c.log ++ [e], highLog := e.seq
             marks := { c.marks with log := clearPlace (logPlaceOf c c.log.length) c.marks.log } }
  else
    { c with log := c.log.drop 1 ++ [e], highLog := e.seq, logPlace := logPlaceOf c 1
             overwrites := (c.overwrites + 1) % 1024
             marks := { c.marks with log := clearPlace c.logPlace c.marks.log } }

/-- R138: the log sequence LOG_WRAP carries, if the write overwrites with the count at 0. -/
def wrapOf (c : Irc) : Option Nat :=
  if c.log.length < 1024 || c.overwrites != 0 then none else c.log.head?.map (·.seq)

/-- R138, R155: a log write completes; LOG_WRAP comes after the count's increase (log 49). -/
def logWritten (s : State) : State :=
  match s.rma.logBuf with
  | e :: rest =>
    let s' := (s.onIrc (appendLog e)).onRma fun m => { m with logBuf := rest }
    match wrapOf s.irc with
    | some seq => raiseEvent .logWrap .absent (some seq) none s'
    | none => s'
  | [] => s

/-- R154: a snapshot is handed to the capture buffer; of two held, the older is dropped. CAPTURE_MISSED is
raised before the dropped number is resolved (log 40). -/
def handSnapshot (n : Snapshot) (s : State) : State :=
  match s.rma.capture with
  | x :: y :: rest =>
    let first : Nat := match s.rma.gap with | some (a, _) => a | none => x.number
    cutWindow (· == (x.number : Int))
      (raiseEvent .captureMissed .absent (some x.number) (some (first : Int))
        (s.onRma fun m =>
          { m with capture := y :: rest ++ [n], gap := some (first, x.number) }))
  | l => s.onRma fun m => { m with capture := l ++ [n] }

/-! ## Copy (R156) -/

/-- The index of the first PENDING position. -/
def firstPending : List Position → Option Nat
  | [] => none
  | .pending :: _ => some 0
  | _ :: rest => (firstPending rest).map (· + 1)

/-- The ring entry that holds a number, with its index from the oldest. -/
def findEntry (n : Int) : Nat → List RingEntry → Option (Nat × RingEntry)
  | _, [] => none
  | i, e :: rest =>
    if (e.first : Int) ≤ n ∧ n ≤ e.last then some (i, e) else findEntry n (i + 1) rest

/-- What copy works on: the slot, its record, the position, and the ring index and snapshot to copy.
Nothing while the head waits. -/
def copyWork (c : Irc) : Option (SlotId × Incident × Nat × Nat × Snapshot) :=
  match capturing c with
  | some (k, i) =>
    match firstPending i.positions with
    | some j =>
      match findEntry (i.firstNumber + j) 0 c.ring with
      | some (idx, .snapshot n) => some (k, i, j, idx, n)
      | _ => none
    | none => none
  | none => none

/-- The findings of a read, block by block in the order of the operand (log 43). -/
def findings (own : Marks → Marks) (faults : List BlockFault) (s : State) : State :=
  forEach (fun f => doubleErrors own f.block f.words) faults s

/-- R156: the slot place of position `j` takes over the damage mark of the source's place, or loses a stale
one. -/
def carryMark (k : SlotId) (j src : Nat) (c : Irc) : Irc :=
  if c.marks.ring.contains src then { c with marks := markPlaces (.slot k) [j] c.marks }
  else
    { c with marks := { c.marks with
      slots := c.marks.slots.set k (clearPlace j (c.marks.slots.get k)) } }

/-- R156, R157: a copy completes. It carries the source's damage mark to the slot place; a double
error marks both, before the position is COPIED (log 40). `asRead` is what a failing read gave in place of
the stored content (log 8). -/
def copied (faults : List BlockFault) (asRead : Option Snapshot) (s : State) : State :=
  match copyWork s.irc with
  | some (k, _, j, idx, n) =>
    let src := ringPlaceOf s.irc idx
    let s := findings (fun m => markPlaces (.slot k) [j] (markPlaces .ring [src] m)) faults
      (s.onIrc (carryMark k j src))
    let content : Snapshot :=
      match faults, asRead with
      | _ :: _, some x => { x with number := n.number }
      | _, _ => n
    match capturing s.irc with
    | some (k', i) =>
      freezeIfDone (s.onIrc (Irc.setSlot k'
        (.capturing { i with positions := i.positions.set j (.copied content) })))
    | none => s
  | none => findings id faults s

/-! ## Scrub (R158) -/

/-- When block `k` of a pass is due, in milliseconds of the pass timer. -/
def blockDue (k period : Nat) : Nat := k * period * 1000 / 4096

/-- The scrub has work while the block at its position is due. -/
def scrubDue (s : State) : Bool :=
  decide (blockDue s.rma.scrubPos s.pst.active.recorder.scrubPeriod ≤ s.rma.passTimer)

/-- The next block, and after block 4095 the next pass. -/
def nextBlock (m : Rma) : Rma :=
  if m.scrubPos < 4095 then { m with scrubPos := m.scrubPos + 1 }
  else { m with scrubPos := 0, passTimer := 0, lateRaised := false }

/-- R158: a scrub transaction completes, with the words it corrected and those that failed;
SCRUB_CORRECTED comes before MEMORY_FAULT (log 59). -/
def scrubbed (corrected : Nat) (failing : List Nat) (s : State) : State :=
  let block := s.rma.scrubPos
  let s :=
    if corrected = 0 then s
    else raiseEvent .scrubCorrected (regionSubject (Config.blockRegion block)) (some block)
      (some corrected) s
  let s := if failing.isEmpty then s else doubleErrors id block failing s
  s.onRma nextBlock

/-- R158: SCRUB_LATE, once for a pass. -/
def scrubLate (s : State) : State :=
  let period := s.pst.active.recorder.scrubPeriod
  if period * 1000 ≤ s.rma.passTimer && !s.rma.lateRaised then
    raiseEvent .scrubLate .absent (some s.rma.scrubPos) (some period)
      (s.onRma fun m => { m with lateRaised := true })
  else s

/-! ## Readout (R159 to R164) -/

/-- The request at the head of the readout queue. -/
def headRead : List Waiting → Option (Byte × ReadReq)
  | [] => none
  | ⟨tag, .read r⟩ :: _ => some (tag, r)
  | _ :: rest => headRead rest

/-- The head of the readout queue replaced, or taken out. -/
def setHeadRead (x : Option ReadReq) : List Waiting → List Waiting
  | [] => []
  | ⟨tag, .read _⟩ :: rest =>
    match x with
    | some r => ⟨tag, .read r⟩ :: rest
    | none => rest
  | w :: rest => w :: setHeadRead x rest

/-- The kind of a read's reply. -/
def ReadSource.kind : ReadSource → Byte
  | .log => 0x16
  | _ => 0x15

/-- The head of the readout queue is answered and leaves; while RESET waits to begin no reply is
formed (R180). -/
def answerHead (tag : Byte) (src : ReadSource) (payload : List Byte) (s : State) : State :=
  let s := s.onHlp fun h => { h with requests := setHeadRead none h.requests }
  if s.sys.resetAsked then s else placeReply src.kind tag payload s

/-- The head of the readout queue goes on to its next item. -/
def goOn (r : ReadReq) (sv : Service) (s : State) : State :=
  let r' : ReadReq := { r with service := some sv }
  s.onHlp fun h => { h with requests := setHeadRead (some r') h.requests }

/-- The size of an item in a reply (R193, R196). -/
def ItemBody.size (mask : Byte) : ItemBody → Nat
  | .snapshot _ => snapshotSize mask
  | .gap _ _ => 10
  | .missing _ => 6
  | .event _ => 20

/-- The first number of an item. -/
def ItemBody.first : ItemBody → Int
  | .snapshot n => n.number
  | .gap a _ => a
  | .missing n => n
  | .event e => e.seq

/-- The last number of an item. -/
def ItemBody.last : ItemBody → Int
  | .gap _ b => b
  | b => b.first

/-- An item as a reply carries it. -/
def ItemBody.bytes (mask : Byte) (damaged : Bool) : ItemBody → List Byte
  | .snapshot n => snapshotBytes mask damaged n
  | .gap a b => gapBytes damaged a b
  | .missing n => missingBytes damaged n
  | .event e => eventBytes e e.gapMark damaged

/-- The content of a ring entry as an item. -/
def RingEntry.body : RingEntry → ItemBody
  | .snapshot n => .snapshot n
  | .gap a b => .gap a b

/-- The content of a slot position as an item; a FROZEN slot has none PENDING. -/
def Position.body (number : Int) : Position → ItemBody
  | .copied n => .snapshot { n with number := number.toNat }
  | _ => .missing number

/-- The entry of the log with a sequence, with its index from the oldest. -/
def findSeq (n : Int) : Nat → List LogEntry → Option (Nat × LogEntry)
  | _, [] => none
  | i, e :: rest => if (e.seq : Int) = n then some (i, e) else findSeq n (i + 1) rest

/-- The record of a FROZEN slot. -/
def frozenAt (k : SlotId) (c : Irc) : Option Incident :=
  match c.slots.get k with
  | .frozen _ i => some i
  | _ => none

/-- A slot's record while it stands as it was when service began. -/
def sameIncident (k : SlotId) (incident : Nat) (c : Irc) : Option Incident :=
  match frozenAt k c with
  | some i => if i.number = incident then some i else none
  | none => none

/-- The item at an index of its source. -/
def itemAtIndex (src : ReadSource) (incident index : Nat) (c : Irc) : Option Item :=
  match src with
  | .ring => c.ring[index]?.map fun e => ⟨index, ringPlaceOf c index, e.body⟩
  | .log => c.log[index]?.map fun e => ⟨index, logPlaceOf c index, .event e⟩
  | .slot k =>
    match sameIncident k incident c with
    | some i => i.positions[index]?.map fun p => ⟨index, index, p.body (i.firstNumber + index)⟩
    | none => none

/-- Where the item that holds a number stands in its source. -/
def indexOf (src : ReadSource) (incident : Nat) (n : Int) (c : Irc) : Option Nat :=
  match src with
  | .ring => (findEntry n 0 c.ring).map (·.1)
  | .log => (findSeq n 0 c.log).map (·.1)
  | .slot k =>
    match sameIncident k incident c with
    | some i => if i.firstNumber ≤ n then some (n - i.firstNumber).toNat else none
    | none => none

/-- The item to be read next, while it still stands. -/
def nextItem (r : ReadReq) (sv : Service) (c : Irc) : Option Item :=
  match indexOf r.source sv.incident sv.next c with
  | some idx => itemAtIndex r.source sv.incident idx c
  | none => none

/-- The number of the incident a slot holds, 0 for a FREE slot and for the ring and the log (R196,
log 20). -/
def incidentNumber (src : ReadSource) (c : Irc) : Nat :=
  match src with
  | .slot k =>
    match c.slots.get k with
    | .capturing i | .frozen _ i => i.number
    | .free => 0
  | _ => 0

/-- The first number held by a collection, 0 when it is empty (R196). -/
def oldestNumber (src : ReadSource) (c : Irc) : Nat :=
  match src with
  | .log => match c.log with | e :: _ => e.seq | [] => 0
  | _ => match c.ring with | e :: _ => e.first | [] => 0

/-- The reply that ends a service whose next item no longer stands: GONE with the oldest number, or
STATE for a slot (R162, R163). -/
def vanishedReply (r : ReadReq) (sv : Service) (c : Irc) : List Byte :=
  match r.source with
  | .slot _ => readReply .state sv.incident sv.taken sv.bytes
  | src => readReply .gone (oldestNumber src c) sv.taken sv.bytes

/-- R164: the cursor of a source set. -/
def setCursor (src : ReadSource) (n : Int) (m : Rma) : Rma :=
  match src with
  | .ring => { m with ringCursor := some n.toNat }
  | .log => { m with logCursor := some n.toNat }
  | .slot k => { m with slotCursors := m.slotCursors.set k (some n) }

/-- How the service of a request begins (R161): answered at once, with the cursor it sets, or a first
item. -/
inductive Begin where
  | answer (payload : List Byte) (cursor : Option Int)
  | serve (sv : Service)
  deriving DecidableEq, Repr

/-- R162, R163: the start located in a ring or log with these extents. -/
def locateIn (n : Nat) (oldest newest : Option Nat) (highest : Nat) (next : Int) : Begin :=
  match oldest, newest with
  | some o, some e =>
    if n < o then .answer (readReply .gone o 0 []) none
    else if e < n then .answer (readReply .ok 0 0 []) (some n)
    else .serve ⟨next, 0, [], 0⟩
  | _, _ =>
    if n ≤ highest then .answer (readReply .gone 0 0 []) none
    else .answer (readReply .ok 0 0 []) (some n)

/-- The first log sequence held at or above a number. -/
def firstFrom (n : Nat) (log : List LogEntry) : Nat :=
  match log.find? fun e => n ≤ e.seq with
  | some e => e.seq
  | none => n

/-- Service of a request begins: its start is located (R161 to R163). -/
def beginService (r : ReadReq) (s : State) : Begin :=
  match r.source with
  | .ring =>
    let oldest := s.irc.ring.head?.map (·.first)
    let start := r.start.or (s.rma.ringCursor.or oldest)
    match start with
    | some n => locateIn n oldest (s.irc.ring.getLast?.map (·.last)) s.irc.highSnap n
    | none => .answer (readReply .ok 0 0 []) none
  | .log =>
    let oldest := s.irc.log.head?.map (·.seq)
    match r.start.or (s.rma.logCursor.or oldest) with
    | some n =>
      locateIn n oldest (s.irc.log.getLast?.map (·.seq)) s.irc.highLog (firstFrom n s.irc.log)
    | none => .answer (readReply .ok 0 0 []) none
  | .slot k =>
    match frozenAt k s.irc with
    | none => .answer (readReply .state (incidentNumber (.slot k) s.irc) 0 []) none
    | some i =>
      let n : Int :=
        match r.start with
        | some n => n
        | none => (s.rma.slotCursors.get k).getD i.firstNumber
      if i.firstNumber ≤ n ∧ n < i.firstNumber + i.positions.length then
        .serve ⟨n, 0, [], i.number⟩
      else .answer (readReply .range i.number 0 []) none

/-- A transaction is granted: the memory is BUSY until its nominal end (R152). -/
def startWork (w : MemWork) (time : Nat) (s : State) : State :=
  s.onRma fun m => { m with memory := some ⟨w, s.sys.clock + time⟩ }

/-- The burst held, replaced. -/
def setBurst (b : Option Burst) (s : State) : State := s.onRma fun m => { m with burst := b }

/-- Whether a place of a source bears a damage mark. -/
def isMarked (src : ReadSource) (place : Nat) (m : Marks) : Bool :=
  match src with
  | .ring => m.ring.contains place
  | .log => m.log.contains place
  | .slot k => (m.slots.get k).contains place

/-- The item the stride takes after one (R162, R163). -/
def successor (r : ReadReq) (sv : Service) (it : Item) (c : Irc) : Option Item :=
  itemAtIndex r.source sv.incident (it.index + match r.source with | .log => 1 | _ => r.stride) c

/-- R161: an item is read as it stands when its read is granted. -/
def grantItem (r : ReadReq) (sv : Service) (it : Item) (s : State) : State :=
  let x : Reading := ⟨it, isMarked r.source it.place s.irc.marks, successor r sv it s.irc⟩
  startWork .readItem 20 ((goOn r sv s).onRma fun m => { m with reading := some x })

/-- How a request at the head goes on: the service that has begun, or its beginning. -/
def serviceOf (r : ReadReq) (s : State) : Begin :=
  match r.service with
  | some sv => .serve sv
  | none => beginService r s

/-- R161: the burst serves the oldest request: it is answered without an item, or its next item is
granted. The first argument bounds the requests answered on the way. -/
def serve : Nat → State → State
  | 0, s => setBurst none s
  | n + 1, s =>
    match headRead s.hlp.requests with
    | none => setBurst none s
    | some (tag, r) =>
      match serviceOf r s with
      | .answer p cursor =>
        serve n (answerHead tag r.source p
          (match cursor with | some x => s.onRma (setCursor r.source x) | none => s))
      | .serve sv =>
        match nextItem r sv s.irc with
        | some it => grantItem r sv it s
        | none => serve n (answerHead tag r.source (vanishedReply r sv s.irc) s)

/-- A burst ends when its items are served or the queue is empty (R161). -/
def endBurst (s : State) : State :=
  match s.rma.burst with
  | some b =>
    if b.limit ≤ b.served || (headRead s.hlp.requests).isNone then setBurst none s else s
  | none => s

/-- The region of a source. -/
def ReadSource.region : ReadSource → Region
  | .ring => .ring
  | .log => .log
  | .slot k => .slot k

/-- What a read item gives: the stored content, or what a failing read gave, under its own number
(log 8). -/
def contentRead (body : ItemBody) (faults : List BlockFault) (asRead : Option Stored) : ItemBody :=
  match faults, asRead, body with
  | _ :: _, some (.snapshot x), .snapshot n => .snapshot { x with number := n.number }
  | _ :: _, some (.gap _ last), .gap first _ => .gap first last
  | _ :: _, some (.event x), .event e => .event { x with seq := e.seq }
  | _, _, _ => body

/-- Where service goes after an item (R162 to R164, R193): the next item, or the end of the reply with
the cursor it sets. -/
def afterItem (r : ReadReq) (sv : Service) (x : Reading) (c : Irc) : Service ⊕ Int :=
  let past := x.item.body.last + 1
  match x.next with
  | none => .inr past
  | some y =>
    let sv' : Service := { sv with next := y.body.first }
    let stands := (nextItem r sv' c).isSome
    if r.count ≤ sv.taken then
      .inr (match r.source with | .log => past | _ => if stands then y.body.first else past)
    else if stands && decide (250 < 6 + sv.bytes.length + y.body.size r.mask) then .inr y.body.first
    else .inl sv'

/-- R164: the cursor a reply OK sets; a slot that no longer holds the incident read has none (log 44). -/
def cursorAfter (src : ReadSource) (incident : Nat) (n : Int) (s : State) : State :=
  match src with
  | .slot k => if (sameIncident k incident s.irc).isSome then s.onRma (setCursor src n) else s
  | _ => s.onRma (setCursor src n)

/-- R161: a read item's entry joins the reply, and the request goes on or is answered. -/
def joinItem (tag : Byte) (r : ReadReq) (sv : Service) (x : Reading) (faults : List BlockFault)
    (asRead : Option Stored) (s : State) : State :=
  let damaged := x.damaged || faults.any fun f => Config.blockRegion f.block != .directory
  let sv : Service :=
    { sv with taken := sv.taken + 1
              bytes := sv.bytes ++ (contentRead x.item.body faults asRead).bytes r.mask damaged }
  match afterItem r sv x s.irc with
  | .inl sv' => goOn r sv' s
  | .inr cursor =>
    answerHead tag r.source (readReply .ok sv.incident sv.taken sv.bytes)
      (cursorAfter r.source sv.incident cursor s)

/-- R157, R161: a read item completes, with what its read found; a reply it completes comes before
MEMORY_FAULT (log 52). -/
def itemRead (faults : List BlockFault) (asRead : Option Stored) (s : State) : State :=
  let t := s.onRma fun m =>
    { m with reading := none, burst := m.burst.map fun b => { b with served := b.served + 1 } }
  match s.rma.reading, headRead s.hlp.requests with
  | some x, some (tag, r) =>
    match r.service with
    | some sv =>
      findings (markPlaces r.source.region [x.item.place]) faults
        (endBurst (joinItem tag r sv x faults asRead t))
    | none => endBurst t
  | _, _ => endBurst t

/-- The reply to a read that waits too long (R160). -/
def timeoutReply (src : ReadSource) (c : Irc) : List Byte :=
  readReply .timeout (incidentNumber src c) 0 []

/-- The first read whose service has not begun and that meets a condition, taken out of the queue. -/
def takeUnbegun (p : ReadReq → Bool) : List Waiting → Option (Byte × ReadReq × List Waiting)
  | [] => none
  | w :: rest =>
    let deeper := (takeUnbegun p rest).map fun x => (x.1, x.2.1, w :: x.2.2)
    match w with
    | ⟨tag, .read r⟩ => if r.service.isNone && p r then some (tag, r, rest) else deeper
    | _ => deeper

/-- R160: the oldest read that waits and meets a condition is answered TIMEOUT. A burst whose queue this
empties ends (R161). -/
def expireRead (p : ReadReq → Bool) (s : State) : State :=
  match takeUnbegun p s.hlp.requests with
  | some (tag, r, rest) =>
    let s := endBurst (s.onHlp fun h => { h with requests := rest })
    if s.sys.resetAsked then s else placeReply r.source.kind tag (timeoutReply r.source s.irc) s
  | none => s

/-! ## The order of grants (R153) -/

/-- Whether the capture buffer waits. -/
def captureWaits (m : Rma) : Bool := m.gap.isSome || !m.capture.isEmpty

/-- Levels 2 to 5. -/
def grantWork (s : State) : State :=
  if captureWaits s.rma then startWork .snapshotWrite 20 s
  else if !s.rma.logBuf.isEmpty then startWork .logWrite 4 s
  else if (copyWork s.irc).isSome then startWork .copy 40 s
  else if scrubDue s then startWork .scrub 30 s
  else if (headRead s.hlp.requests).isSome then
    serve (s.hlp.requests.length + 1)
      (setBurst (some ⟨0, s.pst.active.recorder.readBurst, false⟩) s)
  else s

/-- R153, R166: whether the capture work that waits takes the memory before a burst's next item: Burst Yield
is judged at an item boundary, and what took the memory there keeps it while capture work waits. -/
def yieldsTo (b : Burst) (s : State) : Bool :=
  (b.yielded || s.pst.active.recorder.burstYield) && (captureWaits s.rma || !s.rma.logBuf.isEmpty)

/-- A held burst goes on to its next item; where the queue has none left, the other work is granted. -/
def serveBurst (s : State) : State :=
  let s := serve (s.hlp.requests.length + 1) s
  if s.rma.memory.isSome then s else grantWork s

/-- A free memory is granted; level 1 is the next item of a held burst. Where the burst yields, the service of
the next request begins after the capture work (log 41). -/
def grant (s : State) : State :=
  if s.rma.memory.isSome then s
  else
    match s.rma.burst with
    | none => grantWork s
    | some b =>
      let s' := setBurst (some { b with yielded := yieldsTo b s }) s
      if yieldsTo b s then grantWork s' else serveBurst s'

/-- The completion of the transaction in progress, if it is of this kind. -/
def completeWork (w : MemWork) (f : State → State) (s : State) : State :=
  match s.rma.memory with
  | some b => if b.work = w then f (s.onRma fun m => { m with memory := none }) else s
  | none => s

/-- A command acts on a part that runs, and the arbiter grants what then waits (log 6); without
supply and in reset it has no effect (log 26). -/
def live (f : State → State) (s : State) : Host.Outcome State Fault Refusal :=
  .next (if s.sys.phase = .live then grant (f s) else s)

end Sys2Proof.Machine
end

