-- ==== Sys2Proof/Machine/Flags.lean ====
section
/-! DEFINITION. The computations of the brake path on numbers: rate step, water-filling, air split and
pressures (01, 02), envelope and grid heat (03), speed and reference speed (04), the slide conditions
(05). -/

namespace Sys2Proof.Machine

/-! ## Demand (R2, R3) -/

/-- A step of a rate in units per 100 ms over a frame of `tf` units of 0.1 ms, at least 1 (R3, R64,
R72). -/
def rateStep (rate tf : Nat) : Nat := max 1 (rate * tf / 1000)

/-- R3: the effective demand after one rate step. -/
def rateLimited (apply release tf dReq dEff : Nat) : Nat :=
  if dEff < dReq then min dReq (dEff + rateStep apply tf)
  else if dReq < dEff then max dReq (dEff - rateStep release tf)
  else dEff

/-! ## The blend (R19 to R28) -/

/-- One unit more for the first `extra` axles of a list. -/
def giveExtra : Nat → List Axle → PerAxle Nat → PerAxle Nat
  | 0, _, p => p
  | _, [], p => p
  | n + 1, a :: rest, p => giveExtra n rest (p.modify a (· + 1))

/-- The same amount for each axle of a list. -/
def giveEach (x : Nat) (l : List Axle) (p : PerAxle Nat) : PerAxle Nat :=
  l.foldl (fun p a => p.set a x) p

/-- Each axle of a list its capacity. -/
def giveCapacity (cap : PerAxle Nat) (l : List Axle) (p : PerAxle Nat) : PerAxle Nat :=
  l.foldl (fun p a => p.set a (cap.get a)) p

/-- The capacities of the axles of a list, summed. -/
def capacityOf (cap : PerAxle Nat) (l : List Axle) : Nat :=
  l.foldl (fun n a => n + cap.get a) 0

/-- R20: the passes of water-filling over the axles of `open'` with `r` left to divide; there are at
most six. -/
def waterPass (cap : PerAxle Nat) : Nat → List Axle → Nat → PerAxle Nat → PerAxle Nat
  | 0, _, _, p => p
  | _ + 1, [], _, p => p
  | n + 1, a :: rest, r, p =>
    let set := a :: rest
    let share := r / set.length
    let leaving := set.filter fun x => cap.get x ≤ share
    if leaving.isEmpty then giveExtra (r - set.length * share) set (giveEach share set p)
    else
      waterPass cap n (set.filter fun x => !(cap.get x ≤ share)) (r - capacityOf cap leaving)
        (giveCapacity cap leaving p)

/-- R20: water-filling of a total over the six capacities. -/
def waterFill (cap : PerAxle Nat) (total : Nat) : PerAxle Nat :=
  waterPass cap 6 (Axle.all.filter fun a => 0 < cap.get a) total (.fill 0)

/-- R25: the air total split over the six axles. -/
def airSplit (total : Nat) : PerAxle Nat := giveExtra (total % 6) Axle.all (.fill (total / 6))

/-- A quotient rounded up. -/
def ceilDiv (a b : Nat) : Nat := (a + b - 1) / b

/-- R26: the pressure for a share of air effort, before the floor, and its clamped mark. -/
def pressureFor (b : BlendParams) (share : Nat) : Nat × Bool :=
  if share = 0 then (0, false)
  else
    let p := b.airOffset + ceilDiv (share * 1024) b.airGain
    if b.ceiling < p then (b.ceiling, true) else (p, false)

/-- R28: the effort a pressure target is taken to give. -/
def airEffort (b : BlendParams) (target : Nat) : Nat := (target - b.airOffset) * b.airGain / 1024

/-! ## The dynamic brake (R50, R51) -/

/-- R50: the effort at a speed between two breakpoints, truncated toward zero. -/
def interpolate (p q : Nat × Nat) (v : Nat) : Nat :=
  ((p.2 : Int) + Int.tdiv (((v : Int) - p.1) * ((q.2 : Int) - p.2)) ((q.1 : Int) - p.1)).toNat

/-- R50: the envelope over a list of breakpoints. -/
def envelopeAt : List (Nat × Nat) → Nat → Nat
  | [], _ => 0
  | [p], _ => p.2
  | p :: q :: rest, v =>
    if v ≤ p.1 then p.2 else if v < q.1 then interpolate p q v else envelopeAt (q :: rest) v

/-- R50: the envelope of a DBRAKE set. -/
def DbrakeParams.envelope (d : DbrakeParams) (v : Nat) : Nat := envelopeAt (d.points.take d.count) v

/-- R51: the grid heat after a COMPUTE. -/
def heatAfter (heat eRepTotal vRef tf cooling : Nat) : Nat :=
  min 16777215 (heat + eRepTotal * vRef * tf / 4194304 - cooling * tf / 100)

/-- R53: the electric capacity of an axle. -/
def capacityFor (d : DbrakeParams) (st : DbState) (slide : SlideState) (ceiling vRef : Nat) : Nat :=
  match slide with
  | .relief | .dump | .isolated => 0
  | .normal | .recover =>
    match st with
    | .available => min (d.envelope vRef) ceiling
    | .cool => min (min (d.envelope vRef) d.continuous) ceiling
    | .off | .exciting | .lost | .rest => 0

/-! ## Speed (R59, R63, R64) -/

/-- R59: the speed of an interval. A WHEEL set that is active has its circumferences and pulses. -/
def speedOf (w : WheelParams) (a : Axle) (interval : Nat) : Nat :=
  if interval = 0 then 0
  else min 16000 (360000 * (w.circumference.get a).getD 0 / ((w.pulses.getD 0) * interval))

/-- R64: the reference speed moved to the candidate within the fall and rise steps. -/
def boundedRef (candidate : Option Nat) (vPrev fall rise : Nat) : Nat :=
  match candidate with
  | some c => max (vPrev - fall) (min c (vPrev + rise))
  | none => vPrev - fall

/-! ## Slide (R72) -/

/-- R72: the creep. -/
def creepOf (vRef speed : Nat) : Nat := vRef - speed

/-- R72: the creep threshold. -/
def creepThreshold (p : SlideParams) (vRef : Nat) : Nat := p.creepBase + vRef * p.creepRatio / 256

/-- R72: the slide condition of an axle that is fresh and sensor valid. -/
def slideCondition (p : SlideParams) (tf vRef : Nat) (x : AsuAxle) : Bool :=
  decide (creepThreshold p vRef < creepOf vRef x.speed)
    || decide ((rateStep p.decelThreshold tf : Int) < x.decel)

/-- R72: the recovered condition of an axle that is fresh and sensor valid. -/
def recoveredCondition (p : SlideParams) (vRef : Nat) (x : AsuAxle) : Bool :=
  decide (creepOf vRef x.speed ≤ p.recoveryCreep)

/-- The cut adhesion ceiling (R73, R82). -/
def cutCeiling (p : SlideParams) (command : Nat) : Nat := command * p.adhesionCut / 16

end Sys2Proof.Machine
end

