-- ==== Sys2Proof/Machine/Brakes.lean ====
section
/-! DEFINITION. What the brake path's blocks do at events: withdrawing the dynamic brake (03), closing
dumps and isolating axles (05), the emergency latch and host silence (01), the outputs of the blend and of
the park hold (02, 10), entering and leaving modes (10), and the work at a COMPUTE. -/

namespace Sys2Proof.Machine

/-! ## Electric commands and capacities between COMPUTE events (R22, R23, R54) -/

/-- Every electric command and capacity becomes 0. -/
def dropElectric (s : State) : State :=
  (s.onBle fun b => { b with axles := b.axles.map fun x => { x with command := 0 } }).onDbs fun d =>
    { d with capacity := .fill 0 }

/-- One axle's electric command and capacity become 0. -/
def dropAxle (a : Axle) (s : State) : State :=
  (s.onBle fun b => { b with axles := b.axles.modify a fun x => { x with command := 0 } }).onDbs
    fun d => { d with capacity := d.capacity.set a 0 }

/-! ## The dynamic brake (03) -/

/-- "Allowed" (03 Excitation and rest). -/
def excitationAllowed (s : State) : Bool :=
  s.mdc.mode == .running && s.diu.latch.isNone && s.nlc.health.db.state != .lost
    && !sensorFault s.dbs.nodeStatus && !valveFault s.dbs.nodeStatus

/-- R44: EXCITING, AVAILABLE and COOL go to REST. -/
def enterRest (s : State) : State :=
  match s.dbs.state with
  | .exciting | .available | .cool =>
    dropElectric (s.onDbs fun d => { d with state := .rest, restTime := 0, pendingEnable := false })
  | _ => s

/-- R46: the dynamic brake is LOST. In LOST a further event sets the clean frame count to 0. -/
def enterLost (cause : DbLostCause) (s : State) : State :=
  match s.dbs.state with
  | .off => s
  | .lost => s.onDbs fun d => { d with cleanFrames := 0 }
  | left =>
    raiseEvent .dbLost (.node .db) (some cause.code) (some left.code)
      (dropElectric (s.onDbs fun d => { d with state := .lost, cleanFrames := 0, eRep := .fill 0 }))

/-- R43: excitation times out. The reported efforts are 0 in LOST (R48, log 17). -/
def exciteExpired (s : State) : State :=
  raiseEvent .dbExciteFail (.node .db) (some s.pst.active.dbrake.exciteTime) none
    (s.onDbs fun d => { d with state := .lost, cleanFrames := 0, eRep := .fill 0 })

/-- R45, R49: the rest ends in EXCITING or OFF; in EXCITING also between the COMPUTE that ended UNPARKING and
the next (R179, log 63). -/
def restExpired (s : State) : State :=
  if s.dbs.pendingEnable && excitationAllowed s then
    s.onDbs fun d => { d with state := .exciting, exciteTime := 0, pendingEnable := false }
  else s.onDbs fun d => { d with state := .off, pendingEnable := false, eRep := .fill 0 }

/-- R48: the reported efforts are taken in the states that have any. -/
def takeEfforts (efforts : PerAxle Nat) (d : Dbs) : Dbs :=
  match d.state with
  | .off | .lost => d
  | _ => { d with eRep := efforts.map (min 800) }

/-- R43, R46: the ready flag of a taken DB_DATA. -/
def takeReady (ready fault : Bool) (s : State) : State :=
  match s.dbs.state with
  | .exciting =>
    if ready && !fault && s.nlc.health.db.state == .healthy then
      raiseEvent .dbAvailable (.node .db) (some s.dbs.exciteTime) none
        (s.onDbs fun d => { d with state := .available })
    else s
  | .available | .cool => if ready then s else enterLost .readyDropped s
  | _ => s

/-- R41, R46: the status of a taken reply of the dynamic brake node. -/
def takeDbStatus (w : Status) (s : State) : State :=
  let s := s.onDbs fun d =>
    { d with nodeStatus := w, faultInFrame := d.faultInFrame || sensorFault w || valveFault w }
  if sensorFault w then enterLost .sensorFault s
  else if valveFault w then enterLost .valveFault s
  else s

/-- A taken DB_DATA (R41, R43, R46, R48). A fault flag and a clear ready flag of one record are two events of
R46; the fault flag is taken first (log 56). -/
def takeDbData (efforts : PerAxle Nat) (ready : Bool) (w : Status) (s : State) : State :=
  (takeReady ready (sensorFault w || valveFault w) (takeDbStatus w s)).onDbs (takeEfforts efforts)

/-! ## The slide controller between COMPUTE events (05) -/

/-- A closing of an open dump sets the dump rest (R80). -/
def closeDump (rest : Nat) (x : WscAxle) : WscAxle :=
  if x.dumpOpen then { x with dumpOpen := false, dumpRest := rest } else x

/-- R79: an axle in DUMP goes to RELIEF. -/
def dumpToRelief (a : Axle) (s : State) : State :=
  if (s.wsc.get a).slide = .dump then
    dropAxle a (s.onWsc fun w =>
      w.modify a fun x => { closeDump s.pst.active.slide.dumpRest x with slide := .relief })
  else s

/-- R78: the dump-open time reaches Dump Limit. -/
def dumpLimited (a : Axle) (s : State) : State :=
  raiseEvent .dumpLimit (.axle a) (some (s.wsc.get a).dumpOpenTime)
    (some s.pst.active.slide.dumpLimit) (dumpToRelief a s)

/-- R88: whether a cause set holds a cause. -/
def WscAxle.holds (x : WscAxle) : IsoCause → Bool
  | .node => x.nodeCause
  | .sensor => x.sensorCause
  | .cutout => x.cutout

/-- A cause in or out of a cause set. -/
def WscAxle.setCause (c : IsoCause) (b : Bool) (x : WscAxle) : WscAxle :=
  match c with
  | .node => { x with nodeCause := b }
  | .sensor => { x with sensorCause := b }
  | .cutout => { x with cutout := b }

/-- The bit map of a cause set (R196). -/
def WscAxle.causes (x : WscAxle) : Nat := bit x.nodeCause + 2 * bit x.sensorCause + 4 * bit x.cutout

/-- R87: what entry to ISOLATED does to an axle. -/
def WscAxle.isolated (rest : Nat) (x : WscAxle) : WscAxle :=
  { closeDump rest x with
    slide := .isolated, reliefFrames := 0, recoverFrames := 0, episodeTime := 0, lockTime := 0
    sustainedRaised := false, lockRaised := false }

/-- R87: a cause is added; an axle not ISOLATED enters ISOLATED. -/
def addCause (a : Axle) (c : IsoCause) (s : State) : State :=
  let left := (s.wsc.get a).slide
  let s := s.onWsc fun w => w.modify a (WscAxle.setCause c true)
  if left = .isolated then s
  else
    raiseEvent .axleIsolated (.axle a) (some c.code) (some left.code)
      (dropAxle a (s.onWsc fun w =>
        w.modify a (WscAxle.isolated s.pst.active.slide.dumpRest)))

/-- R87, R88: a cause leaves the set; the axle stays ISOLATED until restoration. -/
def removeCause (a : Axle) (c : IsoCause) (s : State) : State :=
  s.onWsc fun w => w.modify a (WscAxle.setCause c false)

/-! ## Shortfall (R32) -/

/-- R30, R32: SHORTFALL_OFF, with the length of the episode in ms. -/
def shortfallOff (deficit : Option Int) (s : State) : State :=
  raiseEvent .shortfallOff .absent deficit (some (s.ble.sustainTime / 10))
    (s.onBle fun b => { b with shortfall := false, sustainTime := 0, sustainedRaised := false })

/-- R32: a set condition is cleared where evaluation stops. -/
def stopShortfall (s : State) : State := if s.ble.shortfall then shortfallOff none s else s

/-! ## Outputs of the emergency blend and of the park hold -/

/-- R18: the outputs under the latch in RUNNING. -/
def emergencyOutputs (s : State) : State :=
  let p := s.pst.active.blend.emergencyPressure
  s.onBle fun b =>
    { b with
      axles := b.axles.map fun x =>
        { x with command := 0, airShare := 0, target := p, clamped := false }
      eTotal := 0, aTotal := 0, emergencyFlag := true }

/-- R172: the park target. -/
def parkTarget (s : State) : Nat := max s.pst.active.blend.parkPressure s.diu.indep

/-- R172, R173, R177: the larger of the park target and Emergency Pressure. -/
def raisedTarget (s : State) : Nat := max (parkTarget s) s.pst.active.blend.emergencyPressure

/-- R173, R177: the targets raised and the AIR_CMD emergency flag set. -/
def raiseTargets (s : State) : State :=
  let p := raisedTarget s
  s.onBle fun b =>
    { b with axles := b.axles.map fun x => { x with target := p }, emergencyFlag := true }

/-- R172 with R16: the park hold at a COMPUTE. -/
def parkHold (s : State) : State :=
  let full := s.diu.latch.isSome || s.mdc.rollHold
  let p := if full then raisedTarget s else parkTarget s
  s.onBle fun b =>
    { b with
      axles := b.axles.map fun x =>
        { x with command := 0, airShare := 0, target := p, clamped := false }
      eTotal := 0, aTotal := 0, emergencyFlag := full }

/-! ## The emergency latch (R10, R11) -/

/-- Whether the park hold sets the outputs. -/
def isPark : Mode → Bool
  | .parking | .parked | .unparking => true
  | _ => false

/-- Setting the latch acts on the outputs at once: R33 in RUNNING, R173 under the park hold. -/
def latchOutputs (s : State) : State :=
  if s.mdc.mode = .running then emergencyOutputs s
  else if isPark s.mdc.mode then raiseTargets s
  else s

/-- R10, R11: a cause of the emergency latch. The WSC closes every open dump (R79), the DBS goes to REST
(R44). The shortfall condition stays until the next COMPUTE (R32, R34, log 45). -/
def setLatch (c : LatchCause) (s : State) : State :=
  if s.diu.latch.isSome then s
  else
    let before := s.diu.dEff
    let s := s.onDiu fun d => { d with latch := some c, dEff := 6000 }
    latchOutputs (enterRest (forAxles dumpToRelief
      (raiseEvent .emergencyOn .absent (some c.code) (some before) s)))

/-! ## Host silence (R5, R6) -/

/-- R6: entry to SILENT_FALLBACK. -/
def silentFallback (s : State) : State :=
  let b := s.pst.active.blend
  let s := s.onDiu fun d => { d with silence := .silentFallback, dReq := b.fallbackDemand }
  if b.silentEmergency then setLatch .silence s else s

/-- R5: the silence expiry; with Silent Hold 0 the fallback follows at once (R6). -/
def silenceExpired (s : State) : State :=
  let s := raiseEvent .hostSilent .absent (some s.diu.dReq) none
    (s.onDiu fun d => { d with silence := .silentHold, holdTime := 0 })
  if s.pst.active.blend.silentHold = 0 then silentFallback s else s

/-! ## Entering and leaving modes -/

/-- The mode replaced. -/
def setMode (m : Mode) (s : State) : State := s.onMdc fun x => { x with mode := m }

/-- The mode leaves RUNNING (R171, R170): the DBS goes to REST, the dumps close, a set shortfall
condition clears. -/
def leaveRunning (s : State) : State := stopShortfall (forAxles dumpToRelief (enterRest s))

/-- An entry to RUNNING (R5, R6, R65, R177, R190). -/
def enterRunning (s : State) : State :=
  ((((s.onMdc fun m => { m with mode := .running, rollHold := false }).onDiu fun d =>
    { d with silenceTime := 0, holdTime := 0 }).onAsu fun x => { x with acquire := true }).onHlp
      fun h => { h with reportDivider := 0 })

/-- R174: an entry to PARKED; value 2 of PARKED tells the timeout. -/
def enterParked (time : Nat) (byTimeout : Bool) (s : State) : State :=
  raiseEvent .parked .absent (some time) (some (bit byTimeout))
    (s.onMdc fun m => { m with mode := .parked, choice := .park, rollTime := .fill 0 })

/-- R174: the parking time reaches its limit. -/
def parkingExpired (s : State) : State :=
  enterParked 10000 true
    (raiseEvent .parkTimeout .absent (some s.mdc.parkNotWithin) none s)

/-- R170: an entry to STOPPED. -/
def enterStopped (s : State) : State :=
  let s := if s.mdc.mode = .running then leaveRunning s else s
  s.onMdc fun m =>
    { m with mode := .stopped, parkingTime := 0, rollTime := .fill 0, choice := .frame }

/-! ## The work at a COMPUTE (R109): the DIU -/

/-- R3: the rate step. -/
def computeDiu (s : State) : State :=
  if s.mdc.mode = .running && s.diu.latch.isNone then
    let b := s.pst.active.blend
    s.onDiu fun d =>
      { d with dEff := rateLimited b.applyRate b.releaseRate s.nlc.period d.dReq d.dEff }
  else s

/-! ## The work at a COMPUTE: the ASU (R63 to R67) -/

/-- The larger of two candidates. -/
def maxOf (x y : Option Nat) : Option Nat :=
  match x, y with
  | none, y => y
  | some a, none => some a
  | some a, some b => some (max a b)

/-- R63: the speed of an axle that may be the candidate. -/
def candidateOf (s : State) (a : Axle) : Option Nat :=
  let x := s.asu.axles.get a
  if x.fresh && x.valid && (s.wsc.get a).slide != .isolated then some x.speed else none

/-- R63: the candidate. -/
def candidate (s : State) : Option Nat :=
  Axle.all.foldl (fun m a => maxOf m (candidateOf s a)) none

/-- R67: the standstill count and flag after a reference speed is computed. -/
def standstillAfter (vNew vPrev tf limit : Nat) (x : Asu) : Asu :=
  if 0 < vNew then { x with standstillCount := 0, standstill := false }
  else if 0 < vPrev then { x with standstillCount := 0 }
  else
    let n := min 100000 (x.standstillCount + tf)
    { x with standstillCount := n, standstill := x.standstill || decide (limit * 10 ≤ n) }

/-- R63 to R67. -/
def computeAsu (s : State) : State :=
  let w := s.pst.active.wheel
  let tf := s.nlc.period
  let c := candidate s
  let vPrev := s.asu.vRef
  let acquiring := s.asu.acquire && s.mdc.mode == .running
  let v :=
    if acquiring then c.getD 0
    else boundedRef c vPrev (rateStep w.fallLimit tf) (rateStep w.riseLimit tf)
  let lost := c.isNone && !s.asu.degraded
  let s := s.onAsu fun x =>
    { standstillAfter v vPrev tf w.standstillTime x with
      vRef := v, degraded := c.isNone, acquire := x.acquire && !acquiring }
  if lost then raiseEvent .refDegraded .absent (some v) (some vPrev) s else s

/-! ## The work at a COMPUTE: the WSC (R71) -/

/-- Step 1 (R87). -/
def wscSensor (a : Axle) (s : State) : State :=
  if (s.asu.axles.get a).valid then
    removeCause a .sensor (s.onWsc fun w => w.modify a fun x => { x with sensorInvalid := 0 })
  else
    let n := min 255 ((s.wsc.get a).sensorInvalid + 1)
    let s := s.onWsc fun w => w.modify a fun x => { x with sensorInvalid := n }
    if s.pst.active.link.holdFrames ≤ n && !(s.wsc.get a).sensorCause then addCause a .sensor s else s

/-- R85: whether the episode time advances. -/
def inEpisode : SlideState → Bool
  | .relief | .dump | .recover => true
  | _ => false

/-- Step 3, first half (R85). -/
def wscEpisode (a : Axle) (s : State) : State :=
  let x := s.wsc.get a
  if inEpisode x.slide then
    let n := min 600000 (x.episodeTime + s.nlc.period)
    let s := s.onWsc fun w => w.modify a fun x => { x with episodeTime := n }
    if s.pst.active.slide.sustainedTime * 10 ≤ n && !x.sustainedRaised then
      raiseEvent .slideSustained (.axle a) (some (n / 10)) (some x.slide.code)
        (s.onWsc fun w => w.modify a fun x => { x with sustainedRaised := true })
    else s
  else s

/-- Step 3, second half (R86). -/
def wscLock (a : Axle) (s : State) : State :=
  let x := s.wsc.get a
  let p := s.pst.active.slide
  if 0 < (s.asu.axles.get a).speed then
    s.onWsc fun w => w.modify a fun x => { x with lockTime := 0, lockRaised := false }
  else if s.asu.vRef < p.lockSpeed then
    s.onWsc fun w => w.modify a fun x => { x with lockTime := 0 }
  else
    let n := min 100000 (x.lockTime + s.nlc.period)
    let s := s.onWsc fun w => w.modify a fun x => { x with lockTime := n }
    if p.lockTime * 10 ≤ n && !x.lockRaised then
      raiseEvent .axleLocked (.axle a) (some s.asu.vRef) (some x.slide.code)
        (s.onWsc fun w => w.modify a fun x => { x with lockRaised := true })
    else s

/-- R75: the dump of an axle is available. -/
def dumpAvailable (a : Axle) (s : State) : Bool :=
  s.mdc.mode == .running && (s.nlc.health.axles.get a).state == .healthy && !(s.wsc.get a).valveFault

/-- R73: a slide onset. -/
def slideOnset (a : Axle) (s : State) : State :=
  let p := s.pst.active.slide
  let speed := s.asu.axles.get a
  raiseEvent .slideOnset (.axle a) (some (creepOf s.asu.vRef speed.speed)) (some speed.decel)
    (s.onWsc fun w => w.modify a fun x =>
      { x with slide := .relief, ceiling := cutCeiling p (s.ble.axles.get a).command
               reliefFrames := 0, episodeTime := 0, sustainedRaised := false })

/-- R74, R76: an axle that goes on sliding in RELIEF. -/
def reliefSlides (a : Axle) (s : State) : State :=
  let x := s.wsc.get a
  let n := min 255 (x.reliefFrames + 1)
  let s := s.onWsc fun w => w.modify a fun x => { x with reliefFrames := n }
  if s.pst.active.slide.reliefFrames ≤ n && x.dumpRest == 0 && dumpAvailable a s
      && s.diu.latch.isNone then
    raiseEvent .dumpOpen (.axle a) (some (creepOf s.asu.vRef (s.asu.axles.get a).speed)) (some n)
      (s.onWsc fun w => w.modify a fun x =>
        { x with slide := .dump, dumpOpen := true, dumpOpenTime := 0 })
  else s

/-- R82: an axle in RECOVER that does not slide. -/
def recoverGoesOn (a : Axle) (s : State) : State :=
  let x := s.wsc.get a
  let n := min 255 (x.recoverFrames + 1)
  if s.pst.active.slide.recoverFrames ≤ n then
    raiseEvent .slideEnd (.axle a) (some (x.episodeTime / 10)) (some x.ceiling)
      (s.onWsc fun w => w.modify a fun x =>
        { x with slide := .normal, reliefFrames := 0, recoverFrames := 0 })
  else s.onWsc fun w => w.modify a fun x => { x with recoverFrames := n }

/-- Step 4: the slide state machine (R73, R74, R77, R82). -/
def wscMachine (a : Axle) (s : State) : State :=
  let p := s.pst.active.slide
  let speed := s.asu.axles.get a
  let slides := slideCondition p s.nlc.period s.asu.vRef speed
  let recovered := recoveredCondition p s.asu.vRef speed
  match (s.wsc.get a).slide with
  | .normal => if slides then slideOnset a s else s
  | .relief =>
    if recovered then
      s.onWsc fun w => w.modify a fun x => { x with slide := .recover, recoverFrames := 0 }
    else if slides then reliefSlides a s
    else s
  | .dump =>
    if recovered then
      s.onWsc fun w => w.modify a fun x =>
        { closeDump p.dumpRest x with slide := .recover, recoverFrames := 0 }
    else s
  | .recover =>
    if slides then
      s.onWsc fun w => w.modify a fun x =>
        { x with slide := .relief, ceiling := cutCeiling p (s.ble.axles.get a).command
                 reliefFrames := 0 }
    else recoverGoesOn a s
  | .isolated => s

/-- Step 5 (R83). -/
def wscCeiling (a : Axle) (s : State) : State :=
  match (s.wsc.get a).slide with
  | .normal | .recover =>
    s.onWsc fun w => w.modify a fun x =>
      { x with ceiling := min 800 (x.ceiling + s.pst.active.slide.adhesionStep) }
  | _ => s

/-- Step 2 (R89): restoration, also of an axle whose sensor has not been valid yet (log 58). -/
def wscRestore (a : Axle) (s : State) : State :=
  if (s.wsc.get a).causes = 0 then
    raiseEvent .axleRestored (.axle a) none none
      (s.onWsc fun w => w.modify a fun x => { x with slide := .normal, ceiling := 800 })
  else s

/-- R71: the WSC's work for one axle; in step 3 the episode time comes before the lock time (log 57). -/
def wscAxle (a : Axle) (s : State) : State :=
  let s := wscSensor a s
  if (s.wsc.get a).slide = .isolated then wscRestore a s
  else
    let x := s.asu.axles.get a
    if x.fresh && x.valid then wscCeiling a (wscMachine a (wscLock a (wscEpisode a s))) else s

/-! ## The work at a COMPUTE: the DBS (R53) -/

/-- R42. -/
def dbsEnable (s : State) : State :=
  if s.mdc.mode = .running && s.dbs.state == .off && s.diu.dbEnable && excitationAllowed s then
    s.onDbs fun d => { d with state := .exciting, exciteTime := 0 }
  else s

/-- R51. -/
def dbsHeat (s : State) : State :=
  s.onDbs fun d =>
    { d with heat := heatAfter d.heat d.eRep.sum s.asu.vRef s.nlc.period
                       s.pst.active.dbrake.cooling }

/-- R52. -/
def dbsCool (s : State) : State :=
  let p := s.pst.active.dbrake
  match s.dbs.state with
  | .available =>
    if p.heatHigh ≤ s.dbs.heat then
      raiseEvent .dbCoolOn .absent (some s.dbs.heat) (some s.asu.vRef)
        (s.onDbs fun d => { d with state := .cool })
    else s
  | .cool =>
    if s.dbs.heat < p.heatLow then
      raiseEvent .dbCoolOff .absent (some s.dbs.heat) none
        (s.onDbs fun d => { d with state := .available })
    else s
  | _ => s

/-- R53: the six capacities as the state gives them. -/
def capacities (s : State) : PerAxle Nat :=
  .of fun a =>
    capacityFor s.pst.active.dbrake s.dbs.state (s.wsc.get a).slide (s.wsc.get a).ceiling s.asu.vRef

/-- R53: the capacities written into the axle table. -/
def dbsCapacity (s : State) : State := s.onDbs fun d => { d with capacity := capacities s }

/-- R53. -/
def computeDbs (s : State) : State := dbsCapacity (dbsCool (dbsHeat (dbsEnable s)))

/-! ## The work at a COMPUTE: the BLE (R16 to R31) -/

/-- R26, R27: one axle's outputs from its electric command and its air share. -/
def axleOutputs (b : BlendParams) (indep command share : Nat) (x : BleAxle) : BleAxle :=
  { x with command := command, airShare := share
           target := max (pressureFor b share).1 indep, clamped := (pressureFor b share).2 }

/-- Stage 1 (R3, R17, R34): the demand the blend runs from. It is D_eff after the rate step of this COMPUTE, but
0 at the first COMPUTE after the latch was cleared in RUNNING, where R34 is the rule (log 34). -/
def blendedDemand (s : State) : Nat := if s.ble.released then 0 else s.diu.dEff

/-- Stages 3 to 7: the outputs of the service blend. -/
def serviceOutputs (s : State) : State :=
  let b := s.pst.active.blend
  let eTotal := min (blendedDemand s) s.dbs.capacity.sum
  let aTotal := blendedDemand s - s.dbs.eRep.sum
  let commands := waterFill s.dbs.capacity eTotal
  let shares := airSplit aTotal
  s.onBle fun x =>
    { x with
      axles := .of fun a =>
        axleOutputs b s.diu.indep (commands.get a) (shares.get a) (x.axles.get a)
      eTotal := eTotal, aTotal := aTotal, emergencyFlag := false }

/-- Stage 8 (R28): the air effective total. -/
def airEffective (s : State) : Nat :=
  let st := s.ble.airStatus
  if s.nlc.health.air.state == .lost || valveFault st || st.getLsbD 2 then 0
  else (s.ble.axles.map fun x => airEffort s.pst.active.blend x.target).sum

/-- Stage 9 (R30): the deficit. -/
def deficitOf (s : State) : Int :=
  (blendedDemand s : Int) - ((s.dbs.eRep.sum + airEffective s : Nat) : Int)

/-- R31: the sustain time advances. -/
def sustain (deficit : Int) (s : State) : State :=
  let n := min 600000 (s.ble.sustainTime + s.nlc.period)
  let raised := s.ble.sustainedRaised
  let s := s.onBle fun b => { b with sustainTime := n }
  if s.pst.active.blend.sustain * 10 ≤ n && !raised then
    raiseEvent .shortfallSustained .absent (some deficit) (some (blendedDemand s))
      (s.onBle fun b => { b with sustainedRaised := true })
  else s

/-- Stage 9 (R30, R31). -/
def judgeShortfall (s : State) : State :=
  let deficit := deficitOf s
  let exceeds := decide ((s.pst.active.blend.tolerance : Int) < deficit)
  match s.ble.shortfall, exceeds with
  | false, true =>
    raiseEvent .shortfallOn .absent (some deficit) (some (blendedDemand s))
      (s.onBle fun b => { b with shortfall := true, sustainTime := 0, sustainedRaised := false })
  | true, true => sustain deficit s
  | true, false => shortfallOff (some deficit) s
  | false, false => s

/-- R34: the clear state from which the shortfall evaluation resumes once the latch is cleared. A condition
that no COMPUTE under the latch has cleared ends here with SHORTFALL_OFF (R32, log 45). -/
def resumeShortfall (s : State) : State := if s.ble.released then stopShortfall s else s

/-- R16: the service blend, the emergency blend (under the latch, where R32 clears the shortfall condition) or
the park hold. -/
def blendOutputs (s : State) : State :=
  if s.mdc.mode = .running then
    if s.diu.latch.isSome then emergencyOutputs (stopShortfall s)
    else judgeShortfall (serviceOutputs (resumeShortfall s))
  else parkHold s

/-- R16, R34: the BLE's work at a COMPUTE; a later COMPUTE is no longer the first after the latch was
cleared. -/
def computeBle (s : State) : State :=
  (blendOutputs s).onBle fun b => { b with released := false }

/-! ## The work at a COMPUTE: the MDC (R174, R176, R179) -/

/-- R174: an axle's measured pressure is present and within 10 kPa of its target. -/
def within (x : BleAxle) : Bool :=
  match x.measured with
  | some p => p ≤ x.target + 10 && x.target ≤ p + 10
  | none => false

/-- R174: the number of axles not within. -/
def notWithin (s : State) : Nat := s.ble.axles.toList.countP fun x => !within x

/-- R174: the parking test. -/
def parkTest (s : State) : State :=
  let n := notWithin s
  let s := s.onMdc fun m => { m with parkNotWithin := n }
  if n = 0 then enterParked s.mdc.parkingTime false s else s

/-- R176: an axle whose motion counts. -/
def rolls (a : Axle) (s : State) : Bool :=
  (s.nlc.health.axles.get a).state != .lost && (s.asu.axles.get a).valid
    && decide (s.pst.active.slide.rollSpeed ≤ (s.asu.axles.get a).speed)

/-- R176, R177: the roll watch of one axle. -/
def rollAxle (a : Axle) (s : State) : State :=
  if rolls a s then
    let n := min 50000 (s.mdc.rollTime.get a + s.nlc.period)
    let s := s.onMdc fun m => { m with rollTime := m.rollTime.set a n }
    if s.pst.active.slide.rollTime * 10 ≤ n && !s.mdc.rollHold then
      raiseTargets (raiseEvent .rollDetected (.axle a) (some (s.asu.axles.get a).speed)
        (some s.asu.vRef) (s.onMdc fun m => { m with rollHold := true }))
    else s
  else s.onMdc fun m => { m with rollTime := m.rollTime.set a 0 }

/-- R179: the unparking test. -/
def unparkTest (s : State) : State :=
  match s.nlc.frameChoice with
  | .frame => raiseEvent .unparked .absent (some s.nlc.frameCounter) none (enterRunning s)
  | .park => s

/-- The MDC's tests after the park hold, in the mode in which the COMPUTE was raised (R172). -/
def mdcTests (s : State) : State :=
  match s.mdc.mode with
  | .parking => parkTest s
  | .parked => forAxles rollAxle s
  | .unparking => unparkTest s
  | _ => s

/-- The MDC's work at a COMPUTE; the mode it leaves is the snapshot's (R134, R167). -/
def computeMdc (s : State) : State := (mdcTests s).onMdc fun m => { m with workMode := m.mode }

/-- R109: the blocks' work at a COMPUTE, in its order; the axles in the order of their numbers (log 35). The
DIU's rate step comes first (R3); the first blend after a latch cleared in RUNNING runs from 0 all the same
(R34, log 34). -/
def computeWork (s : State) : State :=
  computeMdc (computeBle (computeDbs (forAxles wscAxle (computeAsu (computeDiu s)))))

end Sys2Proof.Machine
end

