-- ==== Sys2Proof/Machine/Params.lean ====
section
/-! DEFINITION. The Parameter Store (07): the fields of the six sets by index, their ranges, validation,
and the activation of sets with what each block does at it. -/

namespace Sys2Proof.Machine

/-! ## Fields by index (07 The six sets) -/

/-- R192: the value of a Frame Start Source code. -/
def startSourceOf : Nat → StartSource
  | 0 => .timer
  | 1 => .sync
  | _ => .syncThenTimer

/-- The field of LINK at an index; absent where it is unset. -/
def LinkParams.get (p : LinkParams) : Nat → Option Nat
  | 0 => p.framePeriod
  | 1 => some p.parkPeriod
  | 2 => some p.responseTimeout
  | 3 => some p.holdFrames
  | 4 => some p.reintegration
  | 5 => some p.startSource.code
  | 6 => some (bit p.retryEnable)
  | 7 => some (bit p.frameStop)
  | 8 => some p.reportDivisor
  | _ => none

/-- The field of LINK at an index written. -/
def LinkParams.put (p : LinkParams) (v : Nat) : Nat → LinkParams
  | 0 => { p with framePeriod := some v }
  | 1 => { p with parkPeriod := v }
  | 2 => { p with responseTimeout := v }
  | 3 => { p with holdFrames := v }
  | 4 => { p with reintegration := v }
  | 5 => { p with startSource := startSourceOf v }
  | 6 => { p with retryEnable := v == 1 }
  | 7 => { p with frameStop := v == 1 }
  | 8 => { p with reportDivisor := v }
  | _ => p

/-- The field of BLEND at an index; absent where it is unset. -/
def BlendParams.get (p : BlendParams) : Nat → Option Nat
  | 0 => some p.applyRate
  | 1 => some p.releaseRate
  | 2 => some p.airOffset
  | 3 => some p.airGain
  | 4 => some p.ceiling
  | 5 => some p.emergencyPressure
  | 6 => some p.parkPressure
  | 7 => some p.demandTimeout
  | 8 => some p.silentHold
  | 9 => some p.fallbackDemand
  | 10 => some (bit p.silentEmergency)
  | 11 => some p.tolerance
  | 12 => some p.sustain
  | _ => none

/-- The field of BLEND at an index written. -/
def BlendParams.put (p : BlendParams) (v : Nat) : Nat → BlendParams
  | 0 => { p with applyRate := v }
  | 1 => { p with releaseRate := v }
  | 2 => { p with airOffset := v }
  | 3 => { p with airGain := v }
  | 4 => { p with ceiling := v }
  | 5 => { p with emergencyPressure := v }
  | 6 => { p with parkPressure := v }
  | 7 => { p with demandTimeout := v }
  | 8 => { p with silentHold := v }
  | 9 => { p with fallbackDemand := v }
  | 10 => { p with silentEmergency := v == 1 }
  | 11 => { p with tolerance := v }
  | 12 => { p with sustain := v }
  | _ => p

/-- The field of SLIDE at an index; absent where it is unset. -/
def SlideParams.get (p : SlideParams) : Nat → Option Nat
  | 0 => some p.creepBase
  | 1 => some p.creepRatio
  | 2 => some p.decelThreshold
  | 3 => some p.recoveryCreep
  | 4 => some p.reliefFrames
  | 5 => some p.dumpLimit
  | 6 => some p.dumpRest
  | 7 => some p.recoverFrames
  | 8 => some p.adhesionCut
  | 9 => some p.adhesionStep
  | 10 => some p.sustainedTime
  | 11 => some p.lockSpeed
  | 12 => some p.lockTime
  | 13 => some p.rollSpeed
  | 14 => some p.rollTime
  | _ => none

/-- The field of SLIDE at an index written. -/
def SlideParams.put (p : SlideParams) (v : Nat) : Nat → SlideParams
  | 0 => { p with creepBase := v }
  | 1 => { p with creepRatio := v }
  | 2 => { p with decelThreshold := v }
  | 3 => { p with recoveryCreep := v }
  | 4 => { p with reliefFrames := v }
  | 5 => { p with dumpLimit := v }
  | 6 => { p with dumpRest := v }
  | 7 => { p with recoverFrames := v }
  | 8 => { p with adhesionCut := v }
  | 9 => { p with adhesionStep := v }
  | 10 => { p with sustainedTime := v }
  | 11 => { p with lockSpeed := v }
  | 12 => { p with lockTime := v }
  | 13 => { p with rollSpeed := v }
  | 14 => { p with rollTime := v }
  | _ => p

/-- The field of RECORDER at an index; absent where it is unset. -/
def RecorderParams.get (p : RecorderParams) : Nat → Option Nat
  | 0 => some p.ringCapacity
  | 1 => some p.preCount
  | 2 => some p.postCount
  | 3 => some p.triggers.toNat
  | 4 => some p.readBurst
  | 5 => some (bit p.burstYield)
  | 6 => some p.readTimeout
  | 7 => some p.scrubPeriod
  | _ => none

/-- The field of RECORDER at an index written. -/
def RecorderParams.put (p : RecorderParams) (v : Nat) : Nat → RecorderParams
  | 0 => { p with ringCapacity := v }
  | 1 => { p with preCount := v }
  | 2 => { p with postCount := v }
  | 3 => { p with triggers := BitVec.ofNat 64 v }
  | 4 => { p with readBurst := v }
  | 5 => { p with burstYield := v == 1 }
  | 6 => { p with readTimeout := v }
  | 7 => { p with scrubPeriod := v }
  | _ => p

/-- The field of WHEEL at an index; absent where it is unset. -/
def WheelParams.get (p : WheelParams) : Nat → Option Nat
  | 6 => p.pulses
  | 7 => some p.fallLimit
  | 8 => some p.riseLimit
  | 9 => some p.standstillTime
  | i => match Axle.ofNumber? (i + 1) with | some a => p.circumference.get a | none => none

/-- The field of WHEEL at an index written. -/
def WheelParams.put (p : WheelParams) (v : Nat) : Nat → WheelParams
  | 6 => { p with pulses := some v }
  | 7 => { p with fallLimit := v }
  | 8 => { p with riseLimit := v }
  | 9 => { p with standstillTime := v }
  | i =>
    match Axle.ofNumber? (i + 1) with
    | some a => { p with circumference := p.circumference.set a (some v) }
    | none => p

/-- The field of DBRAKE at an index: odd indices 1..15 are breakpoint speeds, even 2..16 efforts. -/
def DbrakeParams.get (p : DbrakeParams) : Nat → Option Nat
  | 0 => some p.count
  | 17 => some p.continuous
  | 18 => some p.heatHigh
  | 19 => some p.heatLow
  | 20 => some p.cooling
  | 21 => some p.exciteTime
  | 22 => some p.restTime
  | i => p.points[(i - 1) / 2]?.map fun q => if i % 2 = 1 then q.1 else q.2

/-- One coordinate of a breakpoint written. -/
def putPoint (v i : Nat) (l : List (Nat × Nat)) : List (Nat × Nat) :=
  l.modify ((i - 1) / 2) fun q => if i % 2 = 1 then (v, q.2) else (q.1, v)

/-- The field of DBRAKE at an index written. -/
def DbrakeParams.put (p : DbrakeParams) (v : Nat) : Nat → DbrakeParams
  | 0 => { p with count := v }
  | 17 => { p with continuous := v }
  | 18 => { p with heatHigh := v }
  | 19 => { p with heatLow := v }
  | 20 => { p with cooling := v }
  | 21 => { p with exciteTime := v }
  | 22 => { p with restTime := v }
  | i => { p with points := putPoint v i p.points }

/-- The number of fields of a set. -/
def fieldCount : ParamSet → Nat
  | .link => 9 | .wheel => 10 | .blend => 13 | .slide => 15 | .dbrake => 23 | .recorder => 8

/-- A field of one copy. -/
def getField (set : ParamSet) (i : Nat) (p : Params) : Option Nat :=
  match set with
  | .link => p.link.get i | .wheel => p.wheel.get i | .blend => p.blend.get i
  | .slide => p.slide.get i | .dbrake => p.dbrake.get i | .recorder => p.recorder.get i

/-- A field of one copy written. -/
def putField (set : ParamSet) (i v : Nat) (p : Params) : Params :=
  match set with
  | .link => { p with link := p.link.put v i }
  | .wheel => { p with wheel := p.wheel.put v i }
  | .blend => { p with blend := p.blend.put v i }
  | .slide => { p with slide := p.slide.put v i }
  | .dbrake => { p with dbrake := p.dbrake.put v i }
  | .recorder => { p with recorder := p.recorder.put v i }

/-- Values written from an index on. -/
def putFields (set : ParamSet) : Nat → List Word64 → Params → Params
  | _, [], p => p
  | i, v :: rest, p => putFields set (i + 1) rest (putField set i v.toNat p)

/-! ## Ranges -/

/-- A value within bounds. -/
def between (lo hi v : Nat) : Bool := lo ≤ v && v ≤ hi

/-- The ranges of LINK (07). -/
def linkRange (v : Nat) : Nat → Bool
  | 0 => between 50 400 v
  | 1 => between 1000 10000 v
  | 2 => v == 20 || v == 40 || v == 80 || v == 160
  | 3 => between 1 8 v
  | 4 => between 1 100 v
  | 5 => between 0 2 v
  | 6 => between 0 1 v
  | 7 => between 0 1 v
  | 8 => between 0 255 v
  | _ => false

/-- The ranges of BLEND (07). -/
def blendRange (v : Nat) : Nat → Bool
  | 0 => between 10 6000 v
  | 1 => between 10 6000 v
  | 2 => between 0 100 v
  | 3 => between 1 4095 v
  | 4 => between 100 450 v
  | 5 => between 100 500 v
  | 6 => between 0 450 v
  | 7 => between 50 2000 v
  | 8 => between 0 10000 v
  | 9 => between 0 6000 v
  | 10 => between 0 1 v
  | 11 => between 0 500 v
  | 12 => between 100 10000 v
  | _ => false

/-- The ranges of SLIDE (07). -/
def slideRange (v : Nat) : Nat → Bool
  | 0 => between 0 2000 v
  | 1 => between 0 64 v
  | 2 => between 1 500 v
  | 3 => between 0 1000 v
  | 4 => between 1 50 v
  | 5 => between 100 10000 v
  | 6 => between 100 10000 v
  | 7 => between 1 200 v
  | 8 => between 8 15 v
  | 9 => between 1 100 v
  | 10 => between 1000 60000 v
  | 11 => between 100 5000 v
  | 12 => between 100 5000 v
  | 13 => between 50 1000 v
  | 14 => between 100 5000 v
  | _ => false

/-- The ranges of RECORDER (07). -/
def recorderRange (v : Nat) : Nat → Bool
  | 0 => v == 256 || v == 512 || v == 1024 || v == 2048
  | 1 => between 0 1023 v
  | 2 => between 1 1024 v
  | 3 => kindSetOk (BitVec.ofNat 64 v)
  | 4 => between 1 64 v
  | 5 => between 0 1 v
  | 6 => between 10 1000 v
  | 7 => between 10 3600 v
  | _ => false

/-- The ranges of WHEEL (07). -/
def wheelRange (v : Nat) : Nat → Bool
  | 6 => between 30 600 v
  | 7 => between 1 500 v
  | 8 => between 1 500 v
  | 9 => between 500 10000 v
  | i => decide (i < 6) && between 2800 3800 v

/-- The ranges of DBRAKE (07). -/
def dbrakeRange (v : Nat) : Nat → Bool
  | 0 => between 2 8 v
  | 17 => between 0 800 v
  | 18 => between 1 16777215 v
  | 19 => between 0 16777214 v
  | 20 => between 0 10000 v
  | 21 => between 100 5000 v
  | 22 => between 100 10000 v
  | i => decide (i < 17) && between 0 (if i % 2 = 1 then 16000 else 800) v

/-- Whether a value lies within its field's range. -/
def inRange (set : ParamSet) (i v : Nat) : Bool :=
  match set with
  | .link => linkRange v i | .wheel => wheelRange v i | .blend => blendRange v i
  | .slide => slideRange v i | .dbrake => dbrakeRange v i | .recorder => recorderRange v i

/-- R121: the field index of the first value out of range, counting from the request's first index
(log 55). -/
def firstOut (set : ParamSet) : Nat → List Word64 → Option Nat
  | _, [] => none
  | i, v :: rest => if inRange set i v.toNat then firstOut set (i + 1) rest else some i

/-! ## Validation (R124) -/

/-- The lowest index from `i` on, of `n` fields, that is unset. -/
def firstUnset (f : Nat → Option Nat) (i : Nat) : Nat → Option Nat
  | 0 => none
  | n + 1 => if (f i).isNone then some i else firstUnset f (i + 1) n

/-- The index of the first breakpoint that does not rise above the one before it, from point `j`. -/
def firstFalling (j : Nat) : List (Nat × Nat) → Option Nat
  | p :: q :: rest => if p.1 < q.1 then firstFalling (j + 1) (q :: rest) else some (j + 1)
  | _ => none

/-- R124: the failing field index and the reason code of R196, if a condition fails. -/
def validate (set : ParamSet) (p : Params) : Option (Nat × Nat) :=
  match set with
  | .link => (firstUnset p.link.get 0 9).map fun i => (i, 1)
  | .wheel => (firstUnset p.wheel.get 0 10).map fun i => (i, 1)
  | .blend => if p.blend.emergencyPressure < p.blend.ceiling then some (5, 2) else none
  | .slide => none
  | .dbrake =>
    match firstFalling 0 (p.dbrake.points.take p.dbrake.count) with
    | some j => some (1 + 2 * j, 3)
    | none => if p.dbrake.heatLow < p.dbrake.heatHigh then none else some (19, 4)
  | .recorder =>
    if 1024 < p.recorder.preCount + p.recorder.postCount then some (2, 5)
    else if p.recorder.ringCapacity / 2 < p.recorder.preCount then some (1, 6)
    else none

/-- R123: the first listed set that fails validation, with field and reason. -/
def firstInvalid (p : Params) : List ParamSet → Option (ParamSet × Nat × Nat)
  | [] => none
  | x :: rest =>
    match validate x p with
    | some (i, r) => some (x, i, r)
    | none => firstInvalid p rest

/-! ## Activation (R126) -/

/-- One set copied. -/
def copySet (set : ParamSet) (src dst : Params) : Params :=
  match set with
  | .link => { dst with link := src.link }
  | .wheel => { dst with wheel := src.wheel }
  | .blend => { dst with blend := src.blend }
  | .slide => { dst with slide := src.slide }
  | .dbrake => { dst with dbrake := src.dbrake }
  | .recorder => { dst with recorder := src.recorder }

/-- Sets copied from staging to active, the pending list emptied, the configured-once flags set (R126,
R129). -/
def copySets (l : List ParamSet) (p : Pst) : Pst :=
  { p with
    active := l.foldl (fun dst x => copySet x p.staging dst) p.active
    pendingSets := []
    linkOnce := p.linkOnce || l.contains .link
    wheelOnce := p.wheelOnce || l.contains .wheel }

/-- R129, R168: configured for the first time since reset. -/
def becomeReady (s : State) : State :=
  if s.mdc.mode = .unconfigured && s.pst.linkOnce && s.pst.wheelOnce then setMode .ready s else s

/-- R61, R68. -/
def clearFresh (s : State) : State :=
  s.onAsu fun x =>
    { x with axles := x.axles.map fun y => { y with fresh := false, continuity := false } }

/-- R2, R8: the stored I is lowered, and a silence count already at its new limit expires (log 16). -/
def blendActivated (s : State) : State :=
  let b := s.pst.active.blend
  let s := s.onDiu fun d => { d with indep := min d.indep b.ceiling }
  if s.mdc.mode = .running then
    match s.diu.silence with
    | .normal => if b.demandTimeout < s.diu.silenceTime then silenceExpired s else s
    | .silentHold => if b.silentHold ≤ s.diu.holdTime then silentFallback s else s
    | .silentFallback => s
  else s

/-- R92, for one axle; the axles are taken in the order of their numbers (log 35). -/
def slideActivated (a : Axle) (s : State) : State :=
  let x := s.wsc.get a
  if x.dumpOpen && decide (s.pst.active.slide.dumpLimit ≤ x.dumpOpenTime) then dumpLimited a s
  else s

/-- R54, R22: the capacities formed again, and the commands above them lowered; also where no COMPUTE has
seen AVAILABLE yet (R43, log 46). -/
def boundElectric (s : State) : State :=
  let cap := capacities s
  (s.onDbs fun d => { d with capacity := cap }).onBle fun b =>
    { b with axles := .of fun a =>
        let x := b.axles.get a
        { x with command := min x.command (cap.get a) } }

/-- R54, R55, R22. -/
def dbrakeActivated (s : State) : State :=
  let p := s.pst.active.dbrake
  match s.dbs.state with
  | .exciting => if p.exciteTime ≤ s.dbs.exciteTime then exciteExpired s else s
  | .rest => if p.restTime ≤ s.dbs.restTime then restExpired s else s
  | .available | .cool => boundElectric s
  | _ => s

/-- R128: a changed Ring Capacity clears the ring. -/
def resizeRing (s : State) : State :=
  let n := s.pst.active.recorder.ringCapacity
  if n = s.irc.ringCapacity then s else s.onIrc fun c => { emptyRing c with ringCapacity := n }

/-- R166: the TIMEOUT replies come before SCRUB_LATE (log 60). -/
def recorderActivated (s : State) : State :=
  let p := s.pst.active.recorder
  scrubLate (forEach (fun _ => expireRead fun r => p.readTimeout ≤ r.waitTime) s.hlp.requests s)

/-- What the blocks do at the activation of one set. -/
def setActivated (set : ParamSet) (s : State) : State :=
  match set with
  | .link => s
  | .wheel => clearFresh s
  | .blend => blendActivated s
  | .slide => forAxles slideActivated s
  | .dbrake => dbrakeActivated s
  | .recorder => recorderActivated s

/-- R126: an activation of the listed sets. The ring is cleared with no slot CAPTURING, before any event
(R128); CONFIG_COMMIT comes before what the blocks do (log 15). -/
def activate (l : List ParamSet) (s : State) : State :=
  if l.isEmpty then s
  else
    let s := becomeReady (s.onPst (copySets l))
    let s := if l.contains .recorder then resizeRing s else s
    forEach setActivated l
      (raiseEvent .configCommit .absent (some (setMap l)) (some s.nlc.frameCounter) s)

/-- A list of sets in the order of their codes. -/
def inOrder (l : List ParamSet) : List ParamSet := ParamSet.all.filter fun x => l.contains x

/-- The pending sets activated (R126). -/
def activatePending (s : State) : State := activate s.pst.pendingSets s

end Sys2Proof.Machine
end

