-- ==== Sys2Proof/Machine/Records.lean ====
section
/-! DEFINITION. The contents of the part's records: the snapshot of a COMPUTE (R134), the REPORT (R190),
and the replies of READ_AXLES, STATUS_READ and INCIDENT_LIST (R165, R188, R147, R196). -/

namespace Sys2Proof.Machine

/-! ## Snapshot (R134) -/

/-- The per-axle part of a snapshot. -/
def snapAxle (s : State) (a : Axle) : SnapAxle :=
  let v := s.asu.axles.get a
  let w := s.wsc.get a
  let b := s.ble.axles.get a
  ⟨v.speed, v.fresh, w.slide, w.ceiling, b.command, b.target, w.dumpOpen, b.measured⟩

/-- The snapshot at the completion of a COMPUTE: every field as it stands there, but the mode as the MDC's
work at that COMPUTE left it (R134, R167, log 37). -/
def snapshotOf (number : Nat) (s : State) : Snapshot where
  number := number
  frame := s.nlc.frameCounter
  time := s.irc.timeTag
  mode := s.mdc.workMode
  dReq := s.diu.dReq
  dEff := s.diu.dEff
  latch := s.diu.latch.isSome
  silence := s.diu.silence
  vRef := s.asu.vRef
  degraded := s.asu.degraded
  dbState := s.dbs.state
  heat := s.dbs.heat
  eRepTotal := s.dbs.eRep.sum
  shortfall := s.ble.shortfall
  area := s.nlc.inUse
  axles := .of (snapAxle s)

/-- R134: the next snapshot number; past the last, the ring is emptied, 1 assigned, and the window of a
CAPTURING slot cut (R146). -/
def assignSnapshot (s : State) : State :=
  if s.irc.lastSnap < 4294967295 then s.onIrc fun c => { c with lastSnap := c.lastSnap + 1 }
  else cutWindow (fun _ => true) (s.onIrc fun c => { emptyRing c with lastSnap := 1 })

/-- R134: the frame's snapshot is built and handed to the capture buffer. -/
def takeSnapshot (s : State) : State :=
  let s := assignSnapshot s
  handSnapshot (snapshotOf s.irc.lastSnap s) s

/-! ## REPORT (R190) -/

/-- The flags of a REPORT (R196). -/
def reportFlags (s : State) : Nat :=
  bit s.diu.latch.isSome + 2 * bit s.ble.shortfall
    + 4 * bit (s.ble.axles.toList.any fun x => x.clamped) + 8 * bit s.asu.degraded
    + 16 * bit s.asu.standstill + 32 * bit (s.diu.silence != .normal)

/-- The 18 bytes of a REPORT (R196). -/
def reportBytes (s : State) : List Byte :=
  be 4 s.nlc.frameCounter ++ be 2 s.diu.dReq ++ be 2 s.diu.dEff ++ be 2 s.ble.eTotal
    ++ be 2 s.dbs.eRep.sum ++ be 2 s.ble.aTotal ++ be 2 s.asu.vRef ++ be 2 (reportFlags s)

/-- A waiting REPORT's content replaced; it keeps its place (R190). -/
def replaceReport (r : TxRecord) : List TxRecord → List TxRecord
  | [] => []
  | x :: rest => if x.source = .report then r :: rest else x :: replaceReport r rest

/-- A REPORT is built (R190). -/
def placeReport (s : State) : State :=
  let r : TxRecord := ⟨.report, 0x41, 0, reportBytes s⟩
  if 0 < waitingOf .report s.hlp then
    s.onHlp fun h => { h with waiting := replaceReport r h.waiting }
  else placeRecord r s

/-- R190: the report divider at the completion of a COMPUTE raised in RUNNING; under divisor 0 it is set to
0 here (log 54). -/
def countReport (s : State) : State :=
  let divisor := s.pst.active.link.reportDivisor
  if divisor = 0 then s.onHlp fun h => { h with reportDivider := 0 }
  else if divisor ≤ s.hlp.reportDivider + 1 then
    placeReport (s.onHlp fun h => { h with reportDivider := 0 })
  else s.onHlp fun h => { h with reportDivider := h.reportDivider + 1 }

/-! ## READ_AXLES (R165) -/

/-- The 35 bytes of one axle (R196). -/
def axleBytes (s : State) (a : Axle) : List Byte :=
  let v := s.asu.axles.get a
  let w := s.wsc.get a
  let b := s.ble.axles.get a
  be 2 v.interval ++ be 2 v.speed ++ be 2 v.previous ++ beInt 2 v.decel
    ++ be 1 (bit v.fresh + 2 * bit v.valid + 4 * bit w.dumpOpen + 8 * bit b.clamped
      + 16 * bit b.measured.isSome)
    ++ be 1 w.slide.code ++ be 1 w.causes ++ be 2 w.ceiling ++ be 2 w.dumpOpenTime
    ++ be 2 w.dumpRest ++ be 1 w.reliefFrames ++ be 1 w.recoverFrames ++ be 2 (w.episodeTime / 10)
    ++ be 2 (w.lockTime / 10) ++ be 2 (s.dbs.eRep.get a) ++ be 2 (s.dbs.capacity.get a)
    ++ be 2 b.command ++ be 2 b.airShare ++ be 2 b.target ++ be 2 (b.measured.getD 0)

/-- The READ_AXLES reply. -/
def axlesReply (s : State) : List Byte :=
  Result.ok.code :: Axle.all.flatMap (axleBytes s)

/-- The tags of the READ_AXLES that wait for a COMPUTE. -/
def axlesWaiting : List Waiting → List Byte
  | [] => []
  | ⟨tag, .axles⟩ :: rest => tag :: axlesWaiting rest
  | _ :: rest => axlesWaiting rest

/-- The requests that do not wait for a COMPUTE. -/
def notAxles (w : Waiting) : Bool :=
  match w.body with
  | .axles => false
  | .read _ => true

/-- R165: the READ_AXLES executed while a COMPUTE was under way are answered at its completion; while
RESET waits to begin no reply is formed (R180). Several are answered in the order of receipt (log 53). -/
def answerAxles (s : State) : State :=
  let tags := axlesWaiting s.hlp.requests
  let p := axlesReply s
  let s := s.onHlp fun h => { h with requests := h.requests.filter notAxles }
  if s.sys.resetAsked then s else forEach (fun tag => placeReply 0x17 tag p) tags s

/-! ## STATUS_READ (R188) -/

/-- R167: the ready flag follows the mode. -/
def readyFlag : Mode → Bool
  | .unconfigured | .parking | .unparking => false
  | _ => true

/-- The slot summary of one slot. -/
def slotSummary (r : SlotRecord) : List Byte :=
  be 1 r.outcome.code ++ be 1 (lastCauseCode r.lastCause) ++ be 2 r.failedCount

/-- The STATUS_READ reply (R196). -/
def statusReply (s : State) : List Byte :=
  Result.ok.code :: (be 1 s.mdc.mode.code
    ++ be 1 (bit (readyFlag s.mdc.mode) + 2 * bit s.mdc.rollHold + 4 * bit s.diu.latch.isSome
      + 8 * bit s.hlp.overflow)
    ++ be 1 (match s.diu.latch with | some c => c.code | none => 0xFF)
    ++ be 1 s.diu.silence.code ++ be 1 s.dbs.state.code ++ be 1 s.nlc.inUse.code
    ++ be 1 s.nlc.selected.code ++ be 1 (setMap s.pst.pendingSets) ++ be 2 s.hlp.framingErrors
    ++ be 2 s.hlp.crcErrors ++ be 2 s.hlp.overrunErrors ++ be 8 s.hlp.latched.toNat
    ++ be 4 s.irc.timeTag ++ be 4 s.nlc.frameCounter ++ be 1 s.nlc.records.length
    ++ s.nlc.records.flatMap slotSummary)

/-- R188: what STATUS_READ clears after forming its reply. -/
def clearStatus (s : State) : State :=
  (s.onHlp fun h =>
    { h with latched := 0, framingErrors := 0, crcErrors := 0, overrunErrors := 0
             overflow := false }).onNlc fun n =>
    { n with records := n.records.map fun r => { r with failedCount := 0 } }

/-! ## INCIDENT_LIST (R147) -/

/-- The extents of the ring and the log (R196); of a GAP the oldest entry gives its first number and the
newest its last (log 38). -/
def extents (c : Irc) : List Byte :=
  be 2 c.ringCapacity ++ be 2 c.ring.length
    ++ be 4 (match c.ring.head? with | some e => e.first | none => 0)
    ++ be 4 (match c.ring.getLast? with | some e => e.last | none => 0)
    ++ be 2 c.log.length
    ++ be 4 (match c.log.head? with | some e => e.seq | none => 0)
    ++ be 4 (match c.log.getLast? with | some e => e.seq | none => 0)

/-- The incident record of a slot (R196), offsets 1 to 29. -/
def incidentBytes (state : Nat) (prot : Bool) (i : Incident) : List Byte :=
  be 1 state ++ be 1 (bit prot) ++ be 4 i.number ++ be 1 i.triggerKind.code ++ be 4 i.triggerSeq
    ++ be 4 i.triggerTime ++ be 4 i.triggerSnap ++ be 2 i.pre ++ be 2 i.post
    ++ be 2 (missingCount i) ++ be 2 (copiedCount i) ++ be 2 i.further

/-- The secondary triggers of a slot (R196). -/
def secondaryBytes (l : List (EventKind × Nat)) : List Byte :=
  be 1 l.length ++ l.flatMap fun x => be 1 x.1.code ++ be 4 x.2

/-- The INCIDENT_LIST reply (R196). -/
def incidentReply (k : SlotId) (c : Irc) : List Byte :=
  Result.ok.code ::
    match c.slots.get k with
    | .free => be 29 0 ++ extents c ++ secondaryBytes []
    | .capturing i => incidentBytes 1 false i ++ extents c ++ secondaryBytes i.secondary
    | .frozen p i => incidentBytes 2 p i ++ extents c ++ secondaryBytes i.secondary

end Sys2Proof.Machine
end

