-- ==== Sys2Proof/Machine/Link.lean ====
section
/-! DEFINITION. The Node Link Controller (06): attempts and their outcomes, slots, frames, node health,
the halt; and what the blocks take from replies (R29, R41, R58, R62, R75). -/

namespace Sys2Proof.Machine

/-! ## Schedule areas -/

/-- An area by its name. -/
def Nlc.area (n : Nlc) : AreaId → Area
  | .a => n.areaA
  | .b => n.areaB

/-- An area replaced. -/
def Nlc.setArea (n : Nlc) (k : AreaId) (x : Area) : Nlc :=
  match k with
  | .a => { n with areaA := x }
  | .b => { n with areaB := x }

/-- The slots of the area in use. -/
def slotsInUse (s : State) : List SlotDesc := (s.nlc.area s.nlc.inUse).slots

/-- The initial records of an area's slots (R116). -/
def initialRecords (x : Area) : List SlotRecord := x.slots.map fun _ => .initial

/-- R107, R113: a pending switch applied; every slot record is reset. -/
def applySwitch (n : Nlc) : Nlc :=
  if n.selected = n.inUse then n
  else { n with inUse := n.selected, records := initialRecords (n.area n.selected) }

/-- The nominal duration of a transaction in µs (06 Lines, nodes and transactions). -/
def nominal : Transaction → Nat
  | .axlePoll => 85 | .axleCmd => 80 | .airPoll => 135 | .airCmd => 140 | .dbPoll => 140
  | .dbCmd => 140 | .compute => 200

/-- The nominal sum of an area (R103). -/
def nominalSum (l : List SlotDesc) : Nat :=
  l.foldl (fun n d => n + max d.interval (nominal d.kind)) 0

/-- Whether a transaction is a command transaction. -/
def isCommand : Transaction → Bool
  | .axleCmd | .airCmd | .dbCmd => true
  | _ => false

/-! ## Slot records (R116) -/

/-- One slot record changed. -/
def onRecord (k : Nat) (f : SlotRecord → SlotRecord) (s : State) : State :=
  s.onNlc fun n => { n with records := n.records.modify k f }

/-- The outcome of the slots from `lo` to below `hi`. -/
def setOutcomes (o : Outcome) (lo hi : Nat) : Nat → List SlotRecord → List SlotRecord
  | _, [] => []
  | i, r :: rest =>
    (if lo ≤ i ∧ i < hi then { r with outcome := o } else r) :: setOutcomes o lo hi (i + 1) rest

/-- Slots passed over or skipped (R108, R111). -/
def markSlots (o : Outcome) (lo hi : Nat) (s : State) : State :=
  s.onNlc fun n => { n with records := setOutcomes o lo hi 0 n.records }

/-! ## Attempts (R95, R96) -/

/-- The excite request flag (R40). -/
def exciteFlag (st : DbState) : Bool :=
  match st with
  | .exciting | .available | .cool => true
  | _ => false

/-- The payload of a request as its owners hold it when the attempt begins (R35, R36, R91, R194). -/
def requestPayload (kind : Transaction) (node : Node) (s : State) : List Byte :=
  match kind, node with
  | .axleCmd, .axle a => be 1 (bit (s.wsc.get a).dumpOpen)
  | .airCmd, _ =>
    (Axle.all.flatMap fun a => be 2 (s.ble.axles.get a).target) ++ be 1 (bit s.ble.emergencyFlag)
  | .dbCmd, _ =>
    be 1 (bit (exciteFlag s.dbs.state))
      ++ Axle.all.flatMap fun a => be 2 (s.ble.axles.get a).command
  | _, _ => []

/-- The time of a byte on a node line in µs. -/
def nodeByteTime : Nat := 5

/-- An attempt begins: its request is built and sent, and the node's sequence number advances (R96). -/
def startAttempt (slot start number : Nat) (line : Line) (d : SlotDesc) (node : Node) (s : State) :
    State :=
  let seq := s.nlc.seq.get node
  let request := nodeRecord node.address (requestKind d.kind) seq (requestPayload d.kind node s)
  let a : Attempt :=
    { number := number, line := line, seq := seq, request := request
      timeout := s.pst.active.link.responseTimeout
      phase := .sending (s.sys.clock + nodeByteTime * request.length) }
  s.onNlc fun n =>
    { n with progress := .attempt slot start a, seq := n.seq.set node ((seq + 1) % 16) }

/-- The COMPUTE slot starts: the COMPUTE event is raised and the blocks work (R109). The work ends when
the free time of log 22 has passed, within 200 µs. -/
def startCompute (slot : Nat) (s : State) : State :=
  let doneAt := s.sys.clock + Config.computeTime s.sys.clock % 201
  computeWork (s.onNlc fun n =>
    { n with progress := .compute slot s.sys.clock s.mdc.mode doneAt })

/-- A slot starts (R108). -/
def startSlot (slot : Nat) (d : SlotDesc) (s : State) : State :=
  match d.node with
  | some node => startAttempt slot s.sys.clock 1 d.line d node s
  | none => startCompute slot s

/-- R108: whether a slot runs in this mode. -/
def runs (m : Mode) (d : SlotDesc) : Bool := m != .parked || d.parkActive || d.kind == .compute

/-- The first slot from index `i` on that runs. -/
def findRun (m : Mode) : Nat → List SlotDesc → Option (Nat × SlotDesc)
  | _, [] => none
  | i, d :: rest => if runs m d then some (i, d) else findRun m (i + 1) rest

/-- The first slot of the area in use from index `i` on that runs. -/
def nextRun (i : Nat) (s : State) : Option (Nat × SlotDesc) :=
  findRun s.mdc.mode i ((slotsInUse s).drop i)

/-! ## Node health (R114, R115) -/

/-- The judgement of a node in a frame. -/
inductive Judgement where
  | failed | good | neutral
  deriving DecidableEq, Repr

/-- The outcomes of one node's slots. -/
def outcomesOf (node : Node) : List SlotDesc → List SlotRecord → List Outcome
  | d :: ds, r :: rs =>
    if d.node = some node then r.outcome :: outcomesOf node ds rs else outcomesOf node ds rs
  | _, _ => []

/-- R114. -/
def judge (l : List Outcome) : Judgement :=
  if l.contains .failed then .failed
  else if l.contains .ok || l.contains .okAfterRetry then .good
  else .neutral

/-- R114: the counts of an entry after a frame. -/
def healthCounts (j : Judgement) (h : Health) : Health :=
  match j with
  | .failed => { h with failed := min 255 (h.failed + 1), good := 0 }
  | .good => { h with good := min 255 (h.good + 1), failed := 0 }
  | .neutral => h

/-- R115: the state of an entry after its counts. -/
def healthState (hold reintegration : Nat) (j : Judgement) (h : Health) : HealthState :=
  match h.state, j with
  | .healthy, .failed | .stale, .failed => if hold ≤ h.failed then .lost else .stale
  | .stale, .good => .healthy
  | .lost, .good => if reintegration ≤ h.good then .healthy else .lost
  | st, _ => st

/-- The judgement of a node in the frame that ends. -/
def nodeJudgement (node : Node) (s : State) : Judgement :=
  judge (outcomesOf node (slotsInUse s) s.nlc.records)

/-- R114, R115: one entry brought up to date, with NODE_LOST or NODE_RESTORED. -/
def updateHealth (node : Node) (s : State) : State :=
  let j := nodeJudgement node s
  let before := s.nlc.health.get node
  let h := healthCounts j before
  let st := healthState s.pst.active.link.holdFrames s.pst.active.link.reintegration j h
  let s := s.onNlc fun n => { n with health := n.health.set node { h with state := st } }
  match before.state, st with
  | .healthy, .lost | .stale, .lost =>
    raiseEvent .nodeLost (.node node) (some h.failed) (some s.nlc.frameCounter) s
  | .lost, .healthy =>
    raiseEvent .nodeRestored (.node node) (some h.good) (some s.nlc.frameCounter) s
  | _, _ => s

/-- R79, R87: what the WSC does for one axle when its node's health changes at a frame end. -/
def axleHealthChange (before after : HealthState) (a : Axle) (s : State) : State :=
  if before = after then s
  else
    let s := if before = .healthy then dumpToRelief a s else s
    match after with
    | .lost => if (s.wsc.get a).nodeCause then s else addCause a .node s
    | .healthy => removeCause a .node s
    | .stale => s

/-- R46, R47: what the DBS does at a frame end. The frame in which LOST was entered may itself be clean
(log 47). -/
def dbFrameEnd (before : HealthState) (s : State) : State :=
  let h := s.nlc.health.db
  let s := if h.state = .lost && before != .lost then enterLost .node s else s
  if s.dbs.state = .lost then
    if nodeJudgement .db s = .good && !s.dbs.faultInFrame then
      let n := min 255 (s.dbs.cleanFrames + 1)
      if s.pst.active.link.reintegration ≤ n && h.state == .healthy then
        s.onDbs fun d =>
          { d with state := .rest, restTime := 0, pendingEnable := false, cleanFrames := 0 }
      else s.onDbs fun d => { d with cleanFrames := n }
    else s.onDbs fun d => { d with cleanFrames := 0 }
  else s

/-- R112: the health table brought up to date at a frame end, and the blocks that act on it (log 13). -/
def judgeFrame (s : State) : State :=
  let before := s.nlc.health
  let s := forEach updateHealth Node.all s
  let after := s.nlc.health
  dbFrameEnd before.db.state
    (forAxles (fun a => axleHealthChange (before.axles.get a).state (after.axles.get a).state a) s)

/-! ## Frames (R107, R112, R113) -/

/-- The halt of the link (R113, R61, R146, R170; the order is that of log 14). -/
def halt (s : State) : State :=
  let s := s.onNlc fun n =>
    applySwitch { n with startPending := none, haltRequested := false, progress := .none
                         awaitFirstEdge := false }
  let s := activatePending s
  let s := enterStopped (clearFresh (s.onNlc fun n => { n with link := .idle }))
  cutWindow (fun n => decide ((s.irc.lastSnap : Int) < n)) s

/-- The period in force for a frame (R107, R175). -/
def periodFor (c : PeriodChoice) (p : LinkParams) : Nat :=
  match c with
  | .frame => p.framePeriod.getD 0
  | .park => p.parkPeriod

/-- The blocks' own acts at a frame start (R61, R29, R47). -/
def frameStartBlocks (s : State) : State :=
  ((s.onAsu fun x =>
    { x with axles := x.axles.map fun y => { y with continuity := y.fresh, fresh := false } }).onBle
      fun b => { b with axles := b.axles.map fun y => { y with measured := none } }).onDbs
        fun d => { d with faultInFrame := false }

/-- A frame start (R107), up to its first slot. -/
def startFrame (due : Nat) (s : State) : State :=
  let s := s.onNlc fun n =>
    applySwitch { n with frameCounter := (n.frameCounter + 1) % 4294967296, link := .inFrame
                         awaitFirstEdge := false, frameDue := due }
  let s := frameStartBlocks (activatePending s)
  let choice := s.mdc.choice
  let period := periodFor choice s.pst.active.link
  s.onNlc fun n =>
    { n with period := period, frameChoice := choice, nextDue := due + period * 100 }

/-- The first slot that failed in the frame. -/
def firstFailed : Nat → List SlotRecord → Option Nat
  | _, [] => none
  | i, r :: rest => if r.outcome = .failed then some i else firstFailed (i + 1) rest

/-- R112: the halts at a frame end, if one follows. -/
def haltAtEnd (s : State) : Option State :=
  let failed := firstFailed 0 s.nlc.records
  match s.pst.active.link.frameStop, failed with
  | true, some k =>
    some (halt (raiseEvent .frameStop (.schedSlot k) (some s.nlc.frameCounter) none s))
  | _, _ => if s.nlc.haltRequested then some (halt s) else none

/-- The link waits for the next start. -/
def toWaiting (s : State) : State := s.onNlc fun n => { n with link := .waiting, progress := .none }

/-- A frame end at which no start is pending. -/
def endFrameAlone (s : State) : State :=
  let s := judgeFrame s
  match haltAtEnd s with
  | some s' => s'
  | none => toWaiting s

/-- The first slot of a frame that has started. -/
def firstSlot (s : State) : State :=
  match nextRun 0 s with
  | some (k, d) => startSlot k d (markSlots .notRun 0 k s)
  | none => endFrameAlone (markSlots .notRun 0 s.nlc.records.length s)

/-- A frame start with its first slot. -/
def beginFrame (due : Nat) (s : State) : State := firstSlot (startFrame due s)

/-- R110: a pending start taken at the frame end, with FRAME_OVERRUN before the first slot (log 27). -/
def lateFrame (count : Nat) (s : State) : State :=
  let s := startFrame s.nlc.pendingDue s
  firstSlot (raiseEvent .frameOverrun .absent (some s.nlc.frameCounter) (some count)
    (s.onNlc fun n => { n with startPending := none }))

/-- R112: a frame end. -/
def endFrame (s : State) : State :=
  let s := judgeFrame (s.onNlc fun n => { n with progress := .none })
  match haltAtEnd s with
  | some s' => s'
  | none =>
    match s.nlc.startPending with
    | some count => lateFrame count s
    | none => toWaiting s

/-! ## Slots (R101, R108, R111) -/

/-- The next slot, or the frame end: the slots passed over on the way record NOT_RUN. -/
def proceed (i : Nat) (s : State) : State :=
  match nextRun i s with
  | some (k, d) => startSlot k d (markSlots .notRun i k s)
  | none => endFrame (markSlots .notRun i s.nlc.records.length s)

/-- A slot has completed: the next starts at once, or when this slot's interval has passed (R108). -/
def afterSlot (slot start : Nat) (s : State) : State :=
  let interval := match (slotsInUse s)[slot]? with | some d => d.interval | none => 0
  if start + interval ≤ s.sys.clock || (nextRun (slot + 1) s).isNone then proceed (slot + 1) s
  else s.onNlc fun n => { n with progress := .between (slot + 1) (start + interval) }

/-- A slot succeeds. -/
def slotSucceeds (slot start : Nat) (retried : Bool) (s : State) : State :=
  afterSlot slot start
    (onRecord slot (fun r => { r with outcome := if retried then .okAfterRetry else .ok }) s)

/-- R101, R111: a slot fails; with stop-on-error it ends the frame. -/
def slotFails (slot start : Nat) (cause : FailCause) (s : State) : State :=
  let s := onRecord slot (fun r =>
    { r with outcome := .failed, lastCause := some cause, failedCount := satInc r.failedCount }) s
  match (slotsInUse s)[slot]? with
  | some d =>
    if d.stopOnError then endFrame (markSlots .skipped (slot + 1) s.nlc.records.length s)
    else afterSlot slot start s
  | none => afterSlot slot start s

/-- The other line. -/
def otherLine : Line → Line
  | .a => .b
  | .b => .a

/-- R101: the line of the attempt after attempt `n`, if the policy allows one. -/
def retryLine (p : RetryPolicy) (line : Line) (n : Nat) : Option Line :=
  match p, n with
  | .same, 1 => some line
  | .alternate, 1 => some (otherLine line)
  | .sameThenAlternate, 1 => some line
  | .sameThenAlternate, 2 => some (otherLine line)
  | _, _ => none

/-- R101: an attempt fails; it is retried, or its slot fails. -/
def failAttempt (slot start : Nat) (a : Attempt) (cause : FailCause) (s : State) : State :=
  match (slotsInUse s)[slot]? with
  | some d =>
    match d.node, retryLine d.policy d.line a.number with
    | some node, some line =>
      if s.pst.active.link.retryEnable then startAttempt slot start (a.number + 1) line d node s
      else slotFails slot start cause s
    | _, _ => slotFails slot start cause s
  | none => slotFails slot start cause s

/-! ## Taken replies (R98) -/

/-- R58 to R60: an AXLE_DATA taken by the ASU. -/
def axleData (w : WheelParams) (a : Axle) (interval : Nat) (fault : Bool) (x : AsuAxle) : AsuAxle :=
  if fault then { x with interval := interval, valid := false, fresh := false }
  else
    let v := speedOf w a interval
    { interval := interval, speed := v, previous := x.speed
      decel := if x.continuity || x.fresh then (x.speed : Int) - v else 0
      fresh := true, continuity := x.continuity, valid := true }

/-- R75, R79: the valve fault flag of a taken reply. -/
def takeValve (a : Axle) (w : Status) (s : State) : State :=
  let s := s.onWsc fun t => t.modify a fun x => { x with valveFault := valveFault w }
  if valveFault w then dumpToRelief a s else s

/-- R29: an air node's reply. -/
def takeAirStatus (w : Status) (s : State) : State := s.onBle fun b => { b with airStatus := w }

/-- The 2-byte value of one axle in a payload. -/
def axleField (p : List Byte) (offset : Nat) (a : Axle) : Nat :=
  ofBe (field p (offset + 2 * (a.number - 1)) 2)

/-- R29: the six measured pressures of an AIR_DATA. -/
def takePressures (p : List Byte) (s : State) : State :=
  s.onBle fun b =>
    { b with axles := .of fun a =>
        { b.axles.get a with measured := some (min 500 (axleField p 0 a)) } }

/-- R98: a taken reply is handed to the blocks that act on it. -/
def handReply (kind : Transaction) (node : Node) (p : List Byte) (s : State) : State :=
  let w := replyStatus p
  match kind, node with
  | .axlePoll, .axle a =>
    let f := axleData s.pst.active.wheel a (ofBe (field p 0 2)) (sensorFault w)
    takeValve a w (s.onAsu fun x => { x with axles := x.axles.modify a f })
  | .axleCmd, .axle a =>
    takeValve a w (s.onAsu fun x =>
      { x with axles := x.axles.modify a fun y => { y with valid := y.valid && !sensorFault w } })
  | .airPoll, _ =>
    let s := takeAirStatus w s
    if sensorFault w then s else takePressures p s
  | .airCmd, _ => takeAirStatus w s
  | .dbPoll, _ => takeDbData (.of (axleField p 0)) ((byteAt p 12).getLsbD 0) w s
  | .dbCmd, _ => takeDbStatus w s
  | _, _ => s

/-- R100: the status check of a taken reply. -/
def statusCheck (slot start : Nat) (a : Attempt) (d : SlotDesc) (w : Status) (s : State) : State :=
  let set := w &&& ~~~d.ignore
  let last := match s.nlc.records[slot]? with | some r => r.lastFlags | none => 0
  let fails := set != 0 && d.retryOnStatus
  let s :=
    if set != 0 && set != last then
      raiseEvent .statusSet (.schedSlot slot) (some set.toNat) (some (bit fails)) s
    else s
  let s := onRecord slot (fun r => { r with lastFlags := set }) s
  if fails then failAttempt slot start a .status s else slotSucceeds slot start (a.number != 1) s

/-- An attempt that goes on waiting after a stale reply (R98). Where the Response Timeout has run out by then,
it waits for the deadline that has passed (log 64). -/
def stillWaiting (a : Attempt) : Attempt :=
  match a.phase with
  | .receiving deadline => { a with phase := .awaiting deadline }
  | _ => a

/-- LATE_REPLY (R98, R99). -/
def lateReply (node : Node) (line : Line) (seq : Nat) (s : State) : State :=
  raiseEvent .lateReply (.node node) (some line.code) (some seq) s

/-- R98: a record on the attempt's line is judged against the attempt. -/
def judgeRecord (slot start : Nat) (a : Attempt) (d : SlotDesc) (node : Node) (bytes : List Byte)
    (s : State) : State :=
  match parseNode bytes with
  | none => failAttempt slot start a .messageError s
  | some r =>
    if r.address ≠ node.address ∨ (r.kind, r.payload.length) ≠ expectedReply d.kind then
      failAttempt slot start a .messageError s
    else if r.seq ≠ a.seq then
      lateReply node a.line r.seq
        (s.onNlc fun n => { n with progress := .attempt slot start (stillWaiting a) })
    else statusCheck slot start a d (replyStatus r.payload) (handReply d.kind node r.payload s)

/-- R99: a record that answers no attempt. -/
def strayRecord (line : Line) (bytes : List Byte) (s : State) : State :=
  match parseNode bytes with
  | some r =>
    match Node.ofAddress? r.address with
    | some node => lateReply node line r.seq s
    | none => s
  | none => s

/-- R95, R98, R99: a record heard on a line. -/
def hearRecord (line : Line) (bytes : List Byte) (s : State) : State :=
  if s.nlc.link = .idle then s
  else
    match s.nlc.progress with
    | .attempt slot start a =>
      if a.line = line then
        match (slotsInUse s)[slot]? with
        | some d =>
          match d.node with
          | some node => judgeRecord slot start a d node bytes s
          | none => s
        | none => s
      else strayRecord line bytes s
    | _ => strayRecord line bytes s

/-! ## Due starts (R105, R106, R110) -/

/-- R110: a start that falls due in a frame is held, or merged. -/
def mergeStart (due : Nat) (n : Nlc) : Nlc :=
  { n with startPending := some (match n.startPending with | some c => min 255 (c + 1) | none => 1)
           pendingDue := due }

/-- Whether the frame timer runs (R105, R106). -/
def timerRuns (s : State) : Bool :=
  s.nlc.link != .idle && !s.nlc.awaitFirstEdge && s.pst.active.link.startSource != .sync

/-- A due time of the frame timer. -/
def timerDue (s : State) : State :=
  match s.nlc.link with
  | .idle => s
  | .waiting => beginFrame s.nlc.nextDue s
  | .inFrame =>
    s.onNlc fun n => { mergeStart n.nextDue n with nextDue := n.nextDue + n.period * 100 }

/-- A rising edge of the sync input (R105, R106). -/
def syncEdge (s : State) : State :=
  match s.nlc.link, s.pst.active.link.startSource with
  | .idle, _ | _, .timer => s
  | .waiting, .sync => beginFrame s.sys.clock s
  | .inFrame, .sync => s.onNlc (mergeStart s.sys.clock)
  | _, .syncThenTimer => if s.nlc.awaitFirstEdge then beginFrame s.sys.clock s else s

end Sys2Proof.Machine
end

