-- ==== Sys2Proof/Machine/Modes.lean ====
section
/-! DEFINITION. The commands of the Mode Controller (10): START, STOP, PARK, UNPARK, RESET, the parking
time, and supply and reset (R180, R150). -/

namespace Sys2Proof.Machine

/-- R105, R106: START makes the link leave IDLE. Under TIMER its frame start is due at once, and what was
taken as due together with START comes before it (R127, log 36). -/
def startLink (s : State) : State :=
  if s.pst.active.link.startSource = .timer then
    s.onNlc fun n =>
      { n with link := .waiting, awaitFirstEdge := false, nextDue := s.sys.clock }
  else s.onNlc fun n => { n with link := .waiting, awaitFirstEdge := true }

/-- R169: the execution of START. -/
def startBody (s : State) : State × Answer :=
  if !(s.pst.linkOnce && s.pst.wheelOnce) then (s, codeOnly .notConfigured)
  else if s.mdc.mode ≠ .ready ∧ s.mdc.mode ≠ .stopped then (s, codeOnly .state)
  else if !(s.nlc.area s.nlc.inUse).validated then (s, codeOnly .state)
  else (startLink (enterRunning s), codeOnly .ok)

/-- START (R169). -/
def execStart (tag : Byte) (s : State) : Host.Outcome State Fault Refusal :=
  live (request 0x03 tag true true startBody) s

/-- R170: the execution of STOP. -/
def stopBody (s : State) : State × Answer :=
  if s.mdc.mode ≠ .running ∧ s.mdc.mode ≠ .unparking then (s, codeOnly .state)
  else if s.nlc.link = .inFrame then
    (s.onNlc fun n => { n with haltRequested := true }, codeOnly .pending)
  else (halt s, codeOnly .done)

/-- STOP (R170). -/
def execStop (tag : Byte) (s : State) : Host.Outcome State Fault Refusal :=
  live (request 0x04 tag true true stopBody) s

/-- A reply of a result code and a reason (R196). -/
def parkReply (r : Result) (reason : Nat) : Answer := .reply (r.code :: be 1 reason)

/-- R171: an accepted PARK. -/
def enterParking (s : State) : State :=
  leaveRunning (s.onMdc fun m =>
    { m with mode := .parking, parkingTime := 0, parkNotWithin := 6 })

/-- R171: the execution of PARK. -/
def parkBody (s : State) : State × Answer :=
  if s.mdc.mode ≠ .running then (s, parkReply .state 1)
  else if s.nlc.haltRequested then (s, parkReply .state 2)
  else if s.diu.latch.isSome then (s, parkReply .state 3)
  else if !s.asu.standstill then (s, parkReply .notAtRest 4)
  else (enterParking s, parkReply .ok 0)

/-- PARK (R171). -/
def execPark (tag : Byte) (s : State) : Host.Outcome State Fault Refusal :=
  live (request 0x05 tag true true parkBody) s

/-- R178: the execution of UNPARK. -/
def unparkBody (s : State) : State × Answer :=
  if s.mdc.mode = .parking ∨ s.mdc.mode = .parked then
    (s.onMdc fun m => { m with mode := .unparking, choice := .frame, rollTime := .fill 0 },
      codeOnly .ok)
  else (s, codeOnly .state)

/-- UNPARK (R178). -/
def execUnpark (tag : Byte) (s : State) : Host.Outcome State Fault Refusal :=
  live (request 0x06 tag true true unparkBody) s

/-- R180: the execution of RESET. -/
def resetBody (s : State) : State × Answer := (s, .resetReply [Result.ok.code])

/-- RESET (R180). -/
def execReset (tag : Byte) (s : State) : Host.Outcome State Fault Refusal :=
  live (request 0x07 tag true true resetBody) s

/-- R174: the parking time has reached 10,000 ms. -/
def parkingTimedOut (s : State) : State :=
  if s.mdc.mode = .parking then
    parkingExpired (s.onMdc fun m => { m with parkingTime := 10000 })
  else s

/-- PARKING_TIME_EXPIRY (R174). -/
def execParkingTimeExpiry (s : State) : Host.Outcome State Fault Refusal := live parkingTimedOut s

/-! ## Supply and reset (R150, R152, R180) -/

/-- R152: what a transaction cut by a reset or a power loss leaves when it completes: its entry, and for a
copy its directory work. It freezes no slot (log 50) and has found no double error (log 51). -/
def completedCut (w : MemWork) (s : State) : Irc :=
  match w with
  | .snapshotWrite =>
    match s.rma.gap, s.rma.capture with
    | some (a, b), _ => writeGap a b s.irc
    | none, n :: _ => appendRing (.snapshot n) s.irc
    | none, [] => s.irc
  | .logWrite =>
    match s.rma.logBuf with
    | e :: _ => appendLog e s.irc
    | [] => s.irc
  | .copy =>
    match copyWork s.irc with
    | some (k, i, j, idx, n) =>
      (carryMark k j (ringPlaceOf s.irc idx) s.irc).setSlot k
        (.capturing { i with positions := i.positions.set j (.copied n) })
    | none => s.irc
  | .scrub | .readItem => s.irc

/-- R152: the transaction in progress is cut: it completes, or leaves its place as it stood (log 9). -/
def cutMemory (completes : Bool) (s : State) : State :=
  match s.rma.memory with
  | some b =>
    let c := if completes then completedCut b.work s else s.irc
    (s.onIrc fun _ => c).onRma fun m => { m with memory := none, reading := none }
  | none => s

/-- A reset begins (R180). -/
def beginReset (c : ResetCause) (completes : Bool) (s : State) : State :=
  (cutMemory completes s).onSys fun y => { y with phase := .inReset c }

/-- BEGIN_SOFT_RESET (R180): once the reply of RESET has left the transmitter. -/
def execBeginSoftReset (completes : Bool) (s : State) : Host.Outcome State Fault Refusal :=
  .next (if s.sys.phase = .live ∧ s.sys.resetReplySent then beginReset .request completes s else s)

/-- RESET_INPUT_ASSERTED (R180). A reset that has begun keeps its cause (log 26). -/
def execResetInputAsserted (completes : Bool) (s : State) : Host.Outcome State Fault Refusal :=
  .next (if s.sys.phase = .live then beginReset .input completes s else s)

/-- SUPPLY_APPLIED (R180). -/
def execSupplyApplied (s : State) : Host.Outcome State Fault Refusal :=
  .next (if s.sys.phase = .off then s.onSys fun y => { y with phase := .inReset .powerOn } else s)

/-- POWER_LOSS (R152). -/
def execPowerLoss (completes : Bool) (s : State) : Host.Outcome State Fault Refusal :=
  .next ((cutMemory completes s).onSys fun y => { y with phase := .off })

/-- The host link rate of the strap pins (00 Pins). -/
def rateOf (rate1 rate0 : Bool) : Rate :=
  match rate1, rate0 with
  | false, false => .r115200
  | false, true => .r460800
  | true, false => .r921600
  | true, true => .r1843200

/-- R150: the record of a slot found CAPTURING, with every PENDING position MISSING. -/
def cutAtReset (i : Incident) : Incident :=
  { i with positions := loseFrom (fun _ => true) i.firstNumber i.positions }

/-- R150: a slot found CAPTURING becomes FROZEN. -/
def takeUpSlot (x : Slot) : Slot :=
  match x with
  | .capturing i => .frozen false (cutAtReset i)
  | x => x

/-- R132 to R134, R137: record memory as the IRC takes it up. -/
def takeUp (c : Irc) : Irc :=
  { c with timeTag := 0, lastSnap := c.highSnap, lastLog := c.highLog
           slots := c.slots.map takeUpSlot }

/-- The code of what began a soft reset (R180). -/
def ResetCause.code : ResetCause → Nat
  | .input => 1
  | _ => 0

/-- R180: POWER_ON or SOFT_RESET. -/
def raiseReset (c : ResetCause) (s : State) : State :=
  match c with
  | .powerOn => raiseEvent .powerOn .absent none none s
  | c => raiseEvent .softReset .absent (some (ResetCause.code c)) none s

/-- R9: the emergency input found asserted at the end of a reset. -/
def emergencyAtReset (s : State) : State := if s.diu.emergInput then setLatch .input s else s

/-- R132, R150: the events of record memory at the end of a reset: MEMORY_FAULT, or INCIDENT_INCOMPLETE
for the slot the reset froze, with the missing count it then had. -/
def memoryAtReset (damaged : Bool) (found : Option (SlotId × Incident)) (s : State) : State :=
  if damaged then raiseEvent .memoryFault .absent none none s
  else
    match found with
    | some (k, i) =>
      raiseEvent .incidentIncomplete (.incidentSlot k) (some i.number) (some (missingCount i)) s
    | none => s

/-- R180: the end of a reset. The last operand is the order of two events the rule leaves open
(log 10). -/
def endReset (c : ResetCause) (emergency rate1 rate0 damaged emergencyFirst : Bool) (s : State) :
    State :=
  let irc := if damaged then Irc.empty else takeUp s.irc
  let found := (capturing s.irc).map fun x => (x.1, cutAtReset x.2)
  let s := raiseReset c { State.blank irc (rateOf rate1 rate0) emergency with pending := s.pending }
  if emergencyFirst then memoryAtReset damaged found (emergencyAtReset s)
  else emergencyAtReset (memoryAtReset damaged found s)

/-- RESET_END (R180). -/
def execResetEnd (emergency rate1 rate0 directoryDamaged emergencyFirst : Bool) (s : State) :
    Host.Outcome State Fault Refusal :=
  .next
    (match s.sys.phase with
    | .inReset c => grant (endReset c emergency rate1 rate0 directoryDamaged emergencyFirst s)
    | _ => s)

end Sys2Proof.Machine
end

