-- ==== Sys2Proof/Machine/Clock.lean ====
section
/-! DEFINITION. The clock: what the passing of one microsecond does to the counts in real time, and the
time-driven commands that then fall due (log 1). -/

namespace Sys2Proof.Machine

/-- One millisecond of the DIU's counts (R5, R6). -/
def msDiu (m : Mode) (d : Diu) : Diu :=
  match m, d.silence with
  | .running, .normal => { d with silenceTime := d.silenceTime + 1 }
  | .running, .silentHold => { d with holdTime := d.holdTime + 1 }
  | _, _ => d

/-- One millisecond of the DBS's counts (R43, R45). -/
def msDbs (d : Dbs) : Dbs :=
  match d.state with
  | .exciting => { d with exciteTime := d.exciteTime + 1 }
  | .rest => { d with restTime := d.restTime + 1 }
  | _ => d

/-- One millisecond of an axle's dump times (R78, R80). The dump-open time stops at every closing
(log 48). -/
def msWsc (x : WscAxle) : WscAxle :=
  { x with dumpOpenTime := if x.dumpOpen then x.dumpOpenTime + 1 else x.dumpOpenTime
           dumpRest := x.dumpRest - 1 }

/-- One millisecond of a read's wait (R160). -/
def msWait (w : Waiting) : Waiting :=
  match w.body with
  | .read r => if r.service.isNone then ⟨w.tag, .read { r with waitTime := r.waitTime + 1 }⟩ else w
  | .axles => w

/-- One millisecond of the time tag, which stands at its maximum until TIME_TAG_WRAP (R133). -/
def msTag (c : Irc) : Irc :=
  if c.timeTag < 4294967295 then { c with timeTag := c.timeTag + 1 } else c

/-- One millisecond of the parking time (R174). -/
def msMdc (m : Mdc) : Mdc :=
  if m.mode = .parking then { m with parkingTime := min 10000 (m.parkingTime + 1) } else m

/-- One millisecond of every count in real time. -/
def msTick (s : State) : State :=
  let mode := s.mdc.mode
  ((((((s.onDiu (msDiu mode)).onDbs msDbs).onWsc fun w => w.map msWsc).onIrc msTag).onMdc msMdc).onRma
    fun m => { m with passTimer := m.passTimer + 1 }).onHlp
      fun h => { h with requests := h.requests.map msWait }

/-- A command if it is due. -/
def ifDue (b : Bool) (c : Instr) : List Instr := if b then [c] else []

/-- The axles whose dump has been open for Dump Limit. -/
def dueDumps (s : State) : List Instr :=
  Axle.all.flatMap fun a =>
    let x := s.wsc.get a
    ifDue (x.dumpOpen && decide (s.pst.active.slide.dumpLimit ≤ x.dumpOpenTime)) (.dumpLimitExpiry a)

/-- A READ_TIMEOUT_EXPIRY for each read that has waited for Read Timeout. -/
def dueReads (s : State) : List Instr :=
  s.hlp.requests.flatMap fun w =>
    match w.body with
    | .read r =>
      ifDue (r.service.isNone && decide (s.pst.active.recorder.readTimeout ≤ r.waitTime))
        .readTimeoutExpiry
    | .axles => []

/-- What the slot in progress waits for. -/
def dueSlot (s : State) : List Instr :=
  let now := s.sys.clock
  match s.nlc.progress with
  | .none => []
  | .between _ at' => ifDue (at' ≤ now) .slotIntervalExpiry
  | .compute _ _ _ at' => ifDue (at' ≤ now) .computeComplete
  | .attempt _ _ a =>
    match a.phase with
    | .sending at' => ifDue (at' ≤ now) .nodeRequestSent
    | .awaiting at' => ifDue (at' ≤ now) .responseTimeoutExpiry
    | .receiving _ => []

/-- The completion of a transaction in which no double error is found (log 8). -/
def doneCommand : MemWork → Instr
  | .snapshotWrite => .snapshotWriteDone
  | .logWrite => .logWriteDone
  | .copy => .copyDone [] none
  | .scrub => .scrubDone 0 []
  | .readItem => .readItemDone [] none

/-- The transaction in progress. -/
def dueMemory (s : State) : List Instr :=
  match s.rma.memory with
  | some b => ifDue (b.doneAt ≤ s.sys.clock) (doneCommand b.work)
  | none => ifDue (scrubDue s) .scrubBlockDue

/-- The record being sent. -/
def dueSending (s : State) : List Instr :=
  match s.hlp.sending with
  | some x => ifDue (x.doneAt ≤ s.sys.clock) .hostRecordSent
  | none => []

/-- Whether the count of the silence state has run out (R5, R6). -/
def silenceDue (s : State) : List Instr :=
  let b := s.pst.active.blend
  match s.mdc.mode, s.diu.silence with
  | .running, .normal => ifDue (b.demandTimeout < s.diu.silenceTime) .demandTimeoutExpiry
  | .running, .silentHold => ifDue (b.silentHold ≤ s.diu.holdTime) .silentHoldExpiry
  | _, _ => []

/-- Whether the count of the DB state has run out (R43, R45). -/
def dbDue (s : State) : List Instr :=
  let p := s.pst.active.dbrake
  match s.dbs.state with
  | .exciting => ifDue (p.exciteTime ≤ s.dbs.exciteTime) .exciteTimeExpiry
  | .rest => ifDue (p.restTime ≤ s.dbs.restTime) .restTimeExpiry
  | _ => []

/-- The commands that fall due, in the order in which the model takes those that fall due together (log 1). A
soft reset that falls due lets the transaction it cuts complete (log 9). -/
def dueCommands (s : State) : List Instr :=
  silenceDue s ++ dbDue s ++ dueDumps s
    ++ ifDue (s.mdc.mode == .parking && decide (10000 ≤ s.mdc.parkingTime)) .parkingTimeExpiry
    ++ dueReads s
    ++ ifDue (decide (s.pst.active.recorder.scrubPeriod * 1000 ≤ s.rma.passTimer)
        && !s.rma.lateRaised) .scrubPeriodExpiry
    ++ ifDue s.sys.resetReplySent (.beginSoftReset true)
    ++ ifDue (timerRuns s && decide (s.nlc.nextDue ≤ s.sys.clock)) .frameTimerExpiry
    ++ dueSlot s ++ dueMemory s ++ dueSending s

/-- Whether the link waits with its frame start due now: the start START has made due (R106, log 36). -/
def startDue (s : State) : Bool :=
  s.nlc.link == .waiting && timerRuns s && decide (s.nlc.nextDue ≤ s.sys.clock)

/-- One microsecond passes: the counts advance, and what falls due waits in the queue. A frame start due
now is queued first, and no time passes. Without supply and in reset no time is counted. -/
def tick (s : State) : State :=
  if s.sys.phase = .live then
    if startDue s then { s with pending := [.frameTimerExpiry] } else
    let atMs := 999 ≤ s.sys.subMs
    let wraps := atMs && decide (4294967295 ≤ s.irc.timeTag)
    let t := s.onSys fun y =>
      { y with clock := y.clock + 1, subMs := if atMs then 0 else y.subMs + 1 }
    let t := if atMs then msTick t else t
    { t with pending := ifDue wraps .timeTagWrap ++ dueCommands t }
  else s

end Sys2Proof.Machine
end

