-- ==== Sys2Proof/Machine/Demand.lean ====
section
/-! DEFINITION. The commands of the Demand Intake Unit (01): DEMAND, EMERGENCY_RESET, the emergency
input, host silence. -/

namespace Sys2Proof.Machine

/-- The DEMAND reply (R196): the stored fields, D_eff, latch and silence state. -/
def demandReply (r : Result) (s : State) : List Byte :=
  r.code :: (be 2 s.diu.dReq ++ be 2 s.diu.indep ++ be 2 s.diu.dEff ++ be 1 (bit s.diu.latch.isSome)
    ++ be 1 s.diu.silence.code)

/-- R1, R2: the fields of an accepted DEMAND stored, the silence time restarted, the silence ended. -/
def storeDemand (dReq indep ceiling : Nat) (dbEnable emergency : Bool) (d : Diu) : Diu :=
  { d with
    dReq := min 6000 dReq, indep := min ceiling indep, dbEnable := dbEnable
    demandEmergency := emergency, silence := .normal, silenceTime := 0 }

/-- R44, R45: what the DB enable flag of an accepted DEMAND does in the DBS. -/
def demandEnable (dbEnable : Bool) (s : State) : State :=
  match s.dbs.state with
  | .rest => s.onDbs fun d => { d with pendingEnable := dbEnable }
  | _ => if dbEnable then s else enterRest s

/-- R1, R7, R10: an accepted DEMAND. HOST_RESUMED is raised before EMERGENCY_ON (log 33). -/
def acceptDemand (dReq indep : Nat) (dbEnable emergency : Bool) (s : State) : State :=
  let left := s.diu.silence
  let old := s.diu.dReq
  let ceiling := s.pst.active.blend.ceiling
  let s := s.onDiu (storeDemand dReq indep ceiling dbEnable emergency)
  let s :=
    if left = .normal then s
    else raiseEvent .hostResumed .absent (some left.code) (some old) s
  let s := demandEnable dbEnable s
  if emergency then setLatch .flag s else s

/-- R1: the execution of DEMAND. -/
def demandBody (dReq i : BitVec 16) (dbEnable emergency : Bool) (s : State) : State × Answer :=
  if s.mdc.mode = .unconfigured then (s, .reply (Result.state.code :: be 8 0))
  else
    let clamped := 6000 < dReq.toNat || s.pst.active.blend.ceiling < i.toNat
    let s := acceptDemand dReq.toNat i.toNat dbEnable emergency s
    (s, .reply (demandReply (if clamped then .clamped else .ok) s))

/-- A reply of a result code and a reason (R196). -/
def withReason (r : Result) (reason : Nat) : Answer := .reply (r.code :: be 1 reason)

/-- R34: the BLE keeps its outputs, and knows at the next COMPUTE that the latch was cleared in RUNNING. -/
def markReleased (s : State) : State :=
  if s.mdc.mode = .running then s.onBle fun b => { b with released := true } else s

/-- R13, R34: the latch cleared. The next COMPUTE takes its rate step from D_eff 0; if the latch was cleared in
RUNNING, the blend of that COMPUTE runs from 0 (log 34), and the shortfall starts from the clear state there
(log 45). -/
def clearLatch (c : LatchCause) (s : State) : State :=
  raiseEvent .emergencyReset .absent (some c.code) none
    (markReleased (s.onDiu fun d => { d with latch := none, dEff := 0 }))

/-- R12: the execution of EMERGENCY_RESET. -/
def emergencyResetBody (s : State) : State × Answer :=
  match s.diu.latch with
  | none => (s, withReason .ok 0)
  | some c =>
    if !s.asu.standstill then (s, withReason .notAtRest 1)
    else if s.diu.emergInput then (s, withReason .state 2)
    else if s.diu.demandEmergency then (s, withReason .state 3)
    else (clearLatch c s, withReason .done 0)

/-- DEMAND (R1). -/
def execDemand (tag : Byte) (dReq i : BitVec 16) (dbEnable emergency : Bool) (s : State) :
    Host.Outcome State Fault Refusal :=
  live (request 0x01 tag true true (demandBody dReq i dbEnable emergency)) s

/-- EMERGENCY_RESET (R12). -/
def execEmergencyReset (tag : Byte) (s : State) : Host.Outcome State Fault Refusal :=
  live (request 0x02 tag true true emergencyResetBody) s

/-- EMERGENCY_INPUT_RISE (R9): a debounced rising edge sets the latch with cause INPUT. -/
def execEmergencyInputRise (s : State) : Host.Outcome State Fault Refusal :=
  live (fun s => setLatch .input (s.onDiu fun d => { d with emergInput := true })) s

/-- EMERGENCY_INPUT_FALL (R9): the level changes, with no effect on the latch. -/
def execEmergencyInputFall (s : State) : Host.Outcome State Fault Refusal :=
  live (fun s => s.onDiu fun d => { d with emergInput := false }) s

/-- R5: the silence time has passed Demand Timeout (log 2). A silence time that an accepted DEMAND or an
entry to RUNNING has just restarted does not expire. -/
def silenceTimedOut (s : State) : State :=
  if s.mdc.mode = .running ∧ s.diu.silence = .normal ∧ s.diu.silenceTime ≠ 0 then
    silenceExpired (s.onDiu fun d =>
      { d with silenceTime := max d.silenceTime (s.pst.active.blend.demandTimeout + 1) })
  else s

/-- DEMAND_TIMEOUT_EXPIRY (R5). -/
def execDemandTimeoutExpiry (s : State) : Host.Outcome State Fault Refusal := live silenceTimedOut s

/-- R6: the hold time has reached Silent Hold (log 2). -/
def holdTimedOut (s : State) : State :=
  if s.mdc.mode = .running ∧ s.diu.silence = .silentHold then
    silentFallback (s.onDiu fun d =>
      { d with holdTime := max d.holdTime s.pst.active.blend.silentHold })
  else s

/-- SILENT_HOLD_EXPIRY (R6). -/
def execSilentHoldExpiry (s : State) : Host.Outcome State Fault Refusal := live holdTimedOut s

end Sys2Proof.Machine
end

