-- ==== Sys2Proof/Machine/Memory.lean ====
section
/-! DEFINITION. The commands of the Record Memory Arbiter (09): the reads, the completions of memory
transactions, the scrub's due times, the read timeout. -/

namespace Sys2Proof.Machine

/-! ## Reads (R159) -/

/-- The source of READ_SNAPSHOTS (R196). -/
def sourceOf (n : Nat) : Option ReadSource :=
  if n = 0 then some .ring else (SlotId.ofNumber? n).map .slot

/-- The stride of a stride code (R196). -/
def strideOf (code : Nat) : Option Nat := if code < 4 then some (2 ^ code) else none

/-- The start field: absent for continue; no code but 0 and 1 stands for a value (R192).
Every number is a value of it, 0 among them (log 61). -/
def startOf (cont : Byte) (first : BitVec 32) : Option (Option Nat) :=
  if cont = 1 then some none else if cont = 0 then some (some first.toNat) else none

/-- R159: the fields of READ_SNAPSHOTS, if each lies within its values. -/
def snapshotsRead (source cont : Byte) (first : BitVec 32) (countStride mask : Byte) :
    Option ReadReq :=
  match sourceOf source.toNat, startOf cont first, strideOf (countStride.toNat % 16) with
  | some src, some start, some stride =>
    if mask.getLsbD 6 || mask.getLsbD 7 then none
    else some ⟨src, start, countStride.toNat / 16 + 1, stride, mask, 0, none⟩
  | _, _, _ => none

/-- R159: a slot to be read is FROZEN. -/
def readable (src : ReadSource) (c : Irc) : Bool :=
  match src with
  | .slot k => (frozenAt k c).isSome
  | _ => true

/-- R159: the execution of a read from a source, which is absent where its field stands for nothing. -/
def readBody (source : Option ReadSource) (r : Option ReadReq) (s : State) : State × Answer :=
  let number := match source with | some src => incidentNumber src s.irc | none => 0
  match r with
  | none => (s, .reply (readReply .range number 0 []))
  | some r =>
    if readable r.source s.irc then (s, .wait (.read r))
    else (s, .reply (readReply .state number 0 []))

/-- READ_SNAPSHOTS from its fields. -/
def readSnapshotsBody (source cont : Byte) (first : BitVec 32) (countStride mask : Byte) :
    State → State × Answer :=
  readBody (sourceOf source.toNat) (snapshotsRead source cont first countStride mask)

/-- READ_SNAPSHOTS (R159). -/
def execReadSnapshots (tag source cont : Byte) (first : BitVec 32) (countStride mask : Byte)
    (s : State) : Host.Outcome State Fault Refusal :=
  live (request 0x15 tag true true (readSnapshotsBody source cont first countStride mask)) s

/-- R159: the fields of READ_EVENTS, if each lies within its values. -/
def eventsRead (cont : Byte) (first : BitVec 32) (count : Byte) : Option ReadReq :=
  match startOf cont first with
  | some start =>
    if count.toNat = 0 ∨ 16 < count.toNat then none
    else some ⟨.log, start, count.toNat, 1, 0, 0, none⟩
  | none => none

/-- READ_EVENTS from its fields. -/
def readEventsBody (cont : Byte) (first : BitVec 32) (count : Byte) : State → State × Answer :=
  readBody (some .log) (eventsRead cont first count)

/-- READ_EVENTS (R159). -/
def execReadEvents (tag cont : Byte) (first : BitVec 32) (count : Byte) (s : State) :
    Host.Outcome State Fault Refusal :=
  live (request 0x16 tag true true (readEventsBody cont first count)) s

/-- R165: the execution of READ_AXLES. -/
def readAxlesBody (s : State) : State × Answer :=
  match s.nlc.progress with
  | .compute _ _ _ _ => (s, .wait .axles)
  | _ => (s, .reply (axlesReply s))

/-- READ_AXLES (R165). -/
def execReadAxles (tag : Byte) (s : State) : Host.Outcome State Fault Refusal :=
  live (request 0x17 tag true true readAxlesBody) s

/-! ## Completions (R152) -/

/-- SNAPSHOT_WRITE_DONE (R154). -/
def execSnapshotWriteDone (s : State) : Host.Outcome State Fault Refusal :=
  live (completeWork .snapshotWrite snapshotWritten) s

/-- LOG_WRITE_DONE (R155). -/
def execLogWriteDone (s : State) : Host.Outcome State Fault Refusal :=
  live (completeWork .logWrite logWritten) s

/-- COPY_DONE (R156). -/
def execCopyDone (faults : List BlockFault) (asRead : Option Snapshot) (s : State) :
    Host.Outcome State Fault Refusal :=
  live (completeWork .copy (copied faults asRead)) s

/-- SCRUB_DONE (R158). -/
def execScrubDone (corrected : Nat) (failing : List Nat) (s : State) :
    Host.Outcome State Fault Refusal :=
  live (completeWork .scrub (scrubbed corrected failing)) s

/-- READ_ITEM_DONE (R161). -/
def execReadItemDone (faults : List BlockFault) (asRead : Option Stored) (s : State) :
    Host.Outcome State Fault Refusal :=
  live (completeWork .readItem (itemRead faults asRead)) s

/-! ## Due times (R158, R160) -/

/-- READ_TIMEOUT_EXPIRY (R160): the wait time of the oldest read not begun has reached Read Timeout
(log 2). -/
def execReadTimeoutExpiry (s : State) : Host.Outcome State Fault Refusal :=
  live (expireRead fun _ => true) s

/-- R158: the block at the scrub position falls due (log 2). -/
def blockFallsDue (s : State) : State :=
  s.onRma fun m =>
    { m with passTimer := max m.passTimer (blockDue m.scrubPos s.pst.active.recorder.scrubPeriod) }

/-- SCRUB_BLOCK_DUE (R158). -/
def execScrubBlockDue (s : State) : Host.Outcome State Fault Refusal := live blockFallsDue s

/-- R158: the pass timer reaches Scrub Period with the pass unfinished (log 2). -/
def periodPasses (s : State) : State :=
  scrubLate (s.onRma fun m =>
    { m with passTimer := max m.passTimer (s.pst.active.recorder.scrubPeriod * 1000) })

/-- SCRUB_PERIOD_EXPIRY (R158). -/
def execScrubPeriodExpiry (s : State) : Host.Outcome State Fault Refusal := live periodPasses s

end Sys2Proof.Machine
end

