-- ==== Sys2Proof/Machine/Recorder.lean ====
section
/-! DEFINITION. The commands of the Incident Recorder (08): MARK, the requests on slots and collections,
the wrap of the time tag. -/

namespace Sys2Proof.Machine

/-- R139: the execution of MARK. -/
def markBody (value : BitVec 16) (s : State) : State × Answer :=
  let seq := (assignLog s.irc).lastLog
  (raiseEvent .hostMark .absent (some value.toNat) none s, .reply (Result.ok.code :: be 4 seq))

/-- MARK (R139). -/
def execMark (tag : Byte) (value : BitVec 16) (s : State) : Host.Outcome State Fault Refusal :=
  live (request 0x0F tag true true (markBody value)) s

/-- R147: the execution of INCIDENT_LIST. -/
def incidentListBody (slot : Byte) (s : State) : State × Answer :=
  match SlotId.ofNumber? slot.toNat with
  | some k => (s, .reply (incidentReply k s.irc))
  | none => (s, .reply (Result.range.code :: be 52 0))

/-- INCIDENT_LIST (R147). -/
def execIncidentList (tag slot : Byte) (s : State) : Host.Outcome State Fault Refusal :=
  live (request 0x10 tag true true (incidentListBody slot)) s

/-- R148: the execution of PROTECT. -/
def protectBody (slot : Byte) (s : State) : State × Answer :=
  match SlotId.ofNumber? slot.toNat with
  | none => (s, codeOnly .range)
  | some k =>
    match s.irc.slots.get k with
    | .frozen _ i => (s.onIrc (Irc.setSlot k (.frozen true i)), codeOnly .ok)
    | _ => (s, codeOnly .state)

/-- PROTECT (R148). -/
def execProtect (tag slot : Byte) (s : State) : Host.Outcome State Fault Refusal :=
  live (request 0x11 tag true true (protectBody slot)) s

/-- R148, R164: a FROZEN slot is freed: its record, its damage marks and its cursor go. -/
def releaseSlot (k : SlotId) (s : State) : State :=
  (s.onIrc fun c =>
    { c.setSlot k .free with marks := { c.marks with slots := c.marks.slots.set k [] } }).onRma
      fun m => { m with slotCursors := m.slotCursors.set k none }

/-- R148: the execution of RELEASE. -/
def releaseBody (slot : Byte) (s : State) : State × Answer :=
  match SlotId.ofNumber? slot.toNat with
  | none => (s, codeOnly .range)
  | some k =>
    match s.irc.slots.get k with
    | .free => (s, codeOnly .ok)
    | .capturing _ => (s, codeOnly .state)
    | .frozen _ _ => (releaseSlot k s, codeOnly .ok)

/-- RELEASE (R148). -/
def execRelease (tag slot : Byte) (s : State) : Host.Outcome State Fault Refusal :=
  live (request 0x12 tag true true (releaseBody slot)) s

/-- R149: the execution of LOG_CLEAR. -/
def logClearBody (s : State) : State × Answer :=
  if (capturing s.irc).isSome then (s, codeOnly .busy) else (s.onIrc emptyLog, codeOnly .done)

/-- LOG_CLEAR (R149). -/
def execLogClear (tag : Byte) (s : State) : Host.Outcome State Fault Refusal :=
  live (request 0x13 tag true true logClearBody) s

/-- R149: the execution of RING_CLEAR. -/
def ringClearBody (s : State) : State × Answer :=
  if (capturing s.irc).isSome then (s, codeOnly .busy) else (s.onIrc emptyRing, codeOnly .done)

/-- RING_CLEAR (R149). -/
def execRingClear (tag : Byte) (s : State) : Host.Outcome State Fault Refusal :=
  live (request 0x14 tag true true ringClearBody) s

/-- R133: the time tag wraps. -/
def wrapTime (s : State) : State :=
  raiseEvent .timeWrap .absent none none (s.onIrc fun c => { c with timeTag := 0 })

/-- TIME_TAG_WRAP (R133). -/
def execTimeTagWrap (s : State) : Host.Outcome State Fault Refusal := live wrapTime s

end Sys2Proof.Machine
end

