-- ==== Sys2Proof/Machine/ParamSets.lean ====
section
/-! DEFINITION. The commands of the Parameter Store (07): PARAM_WRITE, PARAM_READ, PARAM_COMMIT. -/

namespace Sys2Proof.Machine

/-- The PARAM_WRITE reply (R196). -/
def writeReply (r : Result) (index : Nat) : Answer := .reply (r.code :: be 1 index)

/-- R121: the execution of PARAM_WRITE. -/
def paramWriteBody (set first : Byte) (values : List Word64) (s : State) : State × Answer :=
  match ParamSet.ofCode? set.toNat with
  | none => (s, writeReply .range 0xFF)
  | some p =>
    if s.pst.pendingSets.contains p then (s, writeReply .busy 0xFF)
    else if fieldCount p < first.toNat + values.length then (s, writeReply .range 0xFF)
    else
      match firstOut p first.toNat values with
      | some i => (s, writeReply .range i)
      | none =>
        (s.onPst fun x => { x with staging := putFields p first.toNat values x.staging },
          writeReply .ok 0xFF)

/-- The length of a PARAM_WRITE or SCHED_WRITE allows whole entries, 1..31 (R195). -/
def listLengthOk (values : List Word64) : Bool := 1 ≤ values.length && values.length ≤ 31

/-- PARAM_WRITE (R121). -/
def execParamWrite (tag set first : Byte) (values : List Word64) (s : State) :
    Host.Outcome State Fault Refusal :=
  live (request 0x08 tag true (listLengthOk values) (paramWriteBody set first values)) s

/-- A parameter value as it is read: eight bytes of 0xFF where it is unset (R192). -/
def valueOrUnset (v : Option Nat) : List Byte :=
  match v with
  | some n => be 8 n
  | none => be 8 0xFFFFFFFFFFFFFFFF

/-- `n` fields of a copy from an index on. -/
def readFields (set : ParamSet) (p : Params) : Nat → Nat → List Byte
  | _, 0 => []
  | i, n + 1 => valueOrUnset (getField set i p) ++ readFields set p (i + 1) n

/-- R122: the execution of PARAM_READ. -/
def paramReadBody (set copy first count : Byte) (s : State) : State × Answer :=
  match ParamSet.ofCode? set.toNat with
  | some p =>
    if 2 ≤ copy.toNat || count.toNat == 0 || fieldCount p < first.toNat + count.toNat then
      (s, .reply (Result.range.code :: be 2 0))
    else
      let from' := if copy.toNat = 0 then s.pst.staging else s.pst.active
      (s, .reply (Result.ok.code :: (be 1 (bit (s.pst.pendingSets.contains p)) ++ be 1 count.toNat
        ++ readFields p from' first.toNat count.toNat)))
  | none => (s, .reply (Result.range.code :: be 2 0))

/-- PARAM_READ (R122). -/
def execParamRead (tag set copy first count : Byte) (s : State) :
    Host.Outcome State Fault Refusal :=
  live (request 0x09 tag true true (paramReadBody set copy first count)) s

/-- The sets of a list of codes, if each is one of the six. -/
def setsOf : List Byte → Option (List ParamSet)
  | [] => some []
  | b :: rest =>
    match ParamSet.ofCode? b.toNat, setsOf rest with
    | some p, some l => some (p :: l)
    | _, _ => none

/-- Whether no element stands twice. -/
def noTwice : List ParamSet → Bool
  | [] => true
  | x :: rest => !rest.contains x && noTwice rest

/-- The PARAM_COMMIT reply (R196). -/
def commitReply (r : Result) (set field reason : Nat) : Answer :=
  .reply (r.code :: (be 1 set ++ be 1 field ++ be 1 reason))

/-- R123: a listed RECORDER changes the ring's capacity. -/
def resizesRing (l : List ParamSet) (s : State) : Bool :=
  l.contains .recorder
    && s.pst.staging.recorder.ringCapacity != s.pst.active.recorder.ringCapacity

/-- The modes in which the ring's capacity may change (R123). -/
def mayResize : Mode → Bool
  | .unconfigured | .ready | .stopped => true
  | _ => false

/-- R125: what an accepted commit does. -/
def acceptCommit (l : List ParamSet) (s : State) : State × Answer :=
  if s.nlc.link = .idle then (activate (inOrder l) s, commitReply .done 0xFF 0xFF 0)
  else
    (s.onPst fun p => { p with pendingSets := inOrder (p.pendingSets ++ l) },
      commitReply .pending 0xFF 0xFF 0)

/-- R123: the checks after the first, on a list of sets. -/
def commitChecked (l : List ParamSet) (s : State) : State × Answer :=
  match l.find? fun x => s.pst.pendingSets.contains x with
  | some x => (s, commitReply .busy x.code 0xFF 0)
  | none =>
    if resizesRing l s && !mayResize s.mdc.mode then
      (s, commitReply .state ParamSet.recorder.code 0xFF 0)
    else if resizesRing l s && (capturing s.irc).isSome then
      (s, commitReply .busy ParamSet.recorder.code 0xFF 0)
    else
      match firstInvalid s.pst.staging l with
      | some (x, i, r) => (s, commitReply .invalid x.code i r)
      | none => acceptCommit l s

/-- R123: the execution of PARAM_COMMIT. -/
def paramCommitBody (sets : List Byte) (s : State) : State × Answer :=
  match setsOf sets with
  | some l => if noTwice l then commitChecked l s else (s, commitReply .range 0xFF 0xFF 0)
  | none => (s, commitReply .range 0xFF 0xFF 0)

/-- The length of a PARAM_COMMIT: 1..6 (R195). -/
def commitLengthOk (sets : List Byte) : Bool := 1 ≤ sets.length && sets.length ≤ 6

/-- PARAM_COMMIT (R123). -/
def execParamCommit (tag : Byte) (sets : List Byte) (s : State) :
    Host.Outcome State Fault Refusal :=
  live (request 0x0A tag true (commitLengthOk sets) (paramCommitBody sets)) s

end Sys2Proof.Machine
end

