-- ==== Sys2Proof/Machine/Schedule.lean ====
section
/-! DEFINITION. The commands of the Node Link Controller (06): the schedule requests, the starts of frames,
slots and attempts, what is heard on the lines, the end of a COMPUTE. -/

namespace Sys2Proof.Machine

/-! ## Schedule requests (R102 to R104) -/

/-- R102, R196: a descriptor of eight bytes, if every field lies within its values. -/
def descOf : List Byte → Option SlotDesc
  | [k, addr, i1, i0, flags, ignore, z1, z0] =>
    if flags.getLsbD 6 || flags.getLsbD 7 || z1 != 0 || z0 != 0 then none
    else
      match Transaction.ofCode? k.toNat with
      | none => none
      | some kind =>
        let d (node : Option Node) : SlotDesc :=
          { kind := kind, node := node, line := if flags.getLsbD 0 then .b else .a
            interval := ofBe [i1, i0], policy := RetryPolicy.ofBits flags
            retryOnStatus := flags.getLsbD 1, ignore := ignore, parkActive := flags.getLsbD 2
            stopOnError := flags.getLsbD 3 }
        match kind, Node.ofAddress? addr.toNat with
        | .compute, _ => if addr = 0 then some (d none) else none
        | _, some node => if nodeFits kind node then some (d (some node)) else none
        | _, none => none
  | _ => none

/-- The descriptors of a request, if every one is within its values. -/
def descsOf : List Word64 → Option (List SlotDesc)
  | [] => some []
  | w :: rest =>
    match descOf (be 8 w.toNat), descsOf rest with
    | some d, some l => some (d :: l)
    | _, _ => none

/-- The SCHED_WRITE reply (R196). -/
def schedReply (r : Result) (count : Nat) : Answer := .reply (r.code :: be 1 count)

/-- R102: the execution of SCHED_WRITE. -/
def schedWriteBody (area first : Byte) (descriptors : List Word64) (s : State) : State × Answer :=
  match AreaId.ofCode? area.toNat with
  | none => (s, schedReply .range 0)
  | some k =>
    let old := (s.nlc.area k).slots
    if k = s.nlc.inUse then (s, schedReply .inUse 0)
    else if k = s.nlc.selected then (s, schedReply .busy 0)
    else if old.length < first.toNat || 32 < first.toNat + descriptors.length then
      (s, schedReply .range 0)
    else
      match descsOf descriptors with
      | none => (s, schedReply .range 0)
      | some l =>
        let slots := old.take first.toNat ++ l
        (s.onNlc fun n => n.setArea k ⟨slots, false⟩, schedReply .ok slots.length)

/-- SCHED_WRITE (R102). -/
def execSchedWrite (tag area first : Byte) (descriptors : List Word64) (s : State) :
    Host.Outcome State Fault Refusal :=
  live (request 0x0B tag true (listLengthOk descriptors) (schedWriteBody area first descriptors)) s

/-- R102, R193: the execution of SCHED_READ. -/
def schedReadBody (area first count : Byte) (s : State) : State × Answer :=
  match AreaId.ofCode? area.toNat with
  | none => (s, .reply (Result.range.code :: be 3 0))
  | some k =>
    let x := s.nlc.area k
    if x.slots.length < first.toNat || count.toNat == 0 || 30 < count.toNat then
      (s, .reply (Result.range.code :: be 3 0))
    else
      let l := (x.slots.drop first.toNat).take count.toNat
      (s, .reply (Result.ok.code :: (be 1 x.slots.length ++ be 1 (bit x.validated) ++ be 1 l.length
        ++ l.flatMap fun d => be 8 d.encode.toNat)))

/-- SCHED_READ (R102). -/
def execSchedRead (tag area first count : Byte) (s : State) : Host.Outcome State Fault Refusal :=
  live (request 0x0C tag true true (schedReadBody area first count)) s

/-- The index of the first slot that meets a condition, from `i` on. -/
def findSlotIndex (p : SlotDesc → Bool) : Nat → List SlotDesc → Option Nat
  | _, [] => none
  | i, d :: rest => if p d then some i else findSlotIndex p (i + 1) rest

/-- The reasons of SCHEDULE_SELECT (R103, R196): code, slot, nominal sum. -/
def invalidArea (framePeriod : Nat) (l : List SlotDesc) : Option (Nat × Nat × Nat) :=
  let isCompute := fun d : SlotDesc => d.kind == .compute
  match l, findSlotIndex isCompute 0 l with
  | [], _ => some (1, 0xFF, 0)
  | _, none => some (2, 0xFF, 0)
  | _, some c =>
    match findSlotIndex isCompute (c + 1) (l.drop (c + 1)),
        findSlotIndex (fun d => isCommand d.kind) 0 (l.take c) with
    | some k, _ => some (3, k, 0)
    | none, some k => some (4, k, 0)
    | none, none =>
      if framePeriod * 100 < nominalSum l then some (5, 0xFF, nominalSum l) else none

/-- The SCHEDULE_SELECT reply (R196). -/
def selectReply (r : Result) (reason slot sum : Nat) : Answer :=
  .reply (r.code :: (be 1 reason ++ be 1 slot ++ be 4 sum))

/-- R104: an area that passed is selected. -/
def selectArea (k : AreaId) (s : State) : State × Answer :=
  let s := s.onNlc fun n => { n.setArea k { n.area k with validated := true } with selected := k }
  if s.nlc.link = .idle then
    (s.onNlc fun n => { n with inUse := k, records := initialRecords (n.area k) },
      selectReply .done 0 0xFF 0)
  else if k = s.nlc.inUse then (s, selectReply .done 0 0xFF 0)
  else (s, selectReply .pending 0 0xFF 0)

/-- R103: the execution of SCHEDULE_SELECT. -/
def selectBody (area : Byte) (s : State) : State × Answer :=
  match AreaId.ofCode? area.toNat with
  | none => (s, selectReply .range 0 0xFF 0)
  | some k =>
    if !s.pst.linkOnce then (s, selectReply .notConfigured 0 0xFF 0)
    else
      match invalidArea (s.pst.active.link.framePeriod.getD 0) (s.nlc.area k).slots with
      | some (reason, slot, sum) => (s, selectReply .invalid reason slot sum)
      | none => selectArea k s

/-- SCHEDULE_SELECT (R103). -/
def execScheduleSelect (tag area : Byte) (s : State) : Host.Outcome State Fault Refusal :=
  live (request 0x0D tag true true (selectBody area)) s

/-! ## Starts (R105, R106, R108) -/

/-- SYNC_RISING_EDGE (R105, R106). -/
def execSyncRisingEdge (s : State) : Host.Outcome State Fault Refusal := live syncEdge s

/-- FRAME_TIMER_EXPIRY (R106, R110). -/
def execFrameTimerExpiry (s : State) : Host.Outcome State Fault Refusal :=
  live (fun s => if timerRuns s then timerDue s else s) s

/-- R108: the interval of a completed slot has passed. A frame in which the mode changed while an interval was
waited for, so that no later slot runs, ends here (log 62). -/
def intervalPassed (s : State) : State :=
  match s.nlc.progress with
  | .between slot _ => proceed slot s
  | _ => s

/-- SLOT_INTERVAL_EXPIRY (R108). -/
def execSlotIntervalExpiry (s : State) : Host.Outcome State Fault Refusal := live intervalPassed s

/-! ## Attempts (R97, R98) -/

/-- An attempt in progress with a new phase. -/
def setPhase (slot start : Nat) (a : Attempt) (p : Phase) (s : State) : State :=
  s.onNlc fun n => { n with progress := .attempt slot start { a with phase := p } }

/-- R98: the request has been sent, and the Response Timeout runs. -/
def requestSent (s : State) : State :=
  match s.nlc.progress with
  | .attempt slot start a =>
    match a.phase with
    | .sending _ => setPhase slot start a (.awaiting (s.sys.clock + a.timeout)) s
    | _ => s
  | _ => s

/-- NODE_REQUEST_SENT (R98). -/
def execNodeRequestSent (s : State) : Host.Outcome State Fault Refusal := live requestSent s

/-- R97: the echo check fails; LOOP_FAIL. -/
def echoFails (s : State) : State :=
  match s.nlc.progress with
  | .attempt slot start a =>
    match a.phase, (slotsInUse s)[slot]? with
    | .sending _, some d =>
      let address := match d.node with | some n => n.address | none => 0
      failAttempt slot start a .echo
        (raiseEvent .loopFail (.schedSlot slot) (some a.line.code) (some address) s)
    | _, _ => s
  | _ => s

/-- ECHO_MISMATCH (R97). -/
def execEchoMismatch (s : State) : Host.Outcome State Fault Refusal := live echoFails s

/-- R98: the first byte of a reply in time. -/
def replyStarts (line : Line) (s : State) : State :=
  match s.nlc.progress with
  | .attempt slot start a =>
    match a.phase with
    | .awaiting deadline =>
      if a.line = line then setPhase slot start a (.receiving deadline) s else s
    | _ => s
  | _ => s

/-- NODE_REPLY_START (R98). -/
def execNodeReplyStart (line : Line) (s : State) : Host.Outcome State Fault Refusal :=
  live (replyStarts line) s

/-- NODE_RECORD_RECEIVED (R98, R99). -/
def execNodeRecordReceived (line : Line) (bytes : List Byte) (s : State) :
    Host.Outcome State Fault Refusal :=
  live (hearRecord line bytes) s

/-- R98: a reply breaks off. -/
def replyBreaks (s : State) : State :=
  match s.nlc.progress with
  | .attempt slot start a =>
    match a.phase with
    | .receiving _ => failAttempt slot start a .messageError s
    | _ => s
  | _ => s

/-- NODE_REPLY_GAP_EXPIRY (R98). -/
def execNodeReplyGapExpiry (s : State) : Host.Outcome State Fault Refusal := live replyBreaks s

/-- R98: no reply has begun in time. -/
def noReply (s : State) : State :=
  match s.nlc.progress with
  | .attempt slot start a =>
    match a.phase with
    | .awaiting _ => failAttempt slot start a .noReply s
    | _ => s
  | _ => s

/-- RESPONSE_TIMEOUT_EXPIRY (R98). -/
def execResponseTimeoutExpiry (s : State) : Host.Outcome State Fault Refusal := live noReply s

/-! ## COMPUTE (R109) -/

/-- R109, R134, R165, R190: the COMPUTE completes; its records come to wait in this order (log 53). -/
def computeCompletes (s : State) : State :=
  match s.nlc.progress with
  | .compute slot start raisedIn _ =>
    let s := takeSnapshot s
    let s := if raisedIn = .running then countReport s else s
    slotSucceeds slot start false (answerAxles s)
  | _ => s

/-- COMPUTE_COMPLETE (R109). -/
def execComputeComplete (s : State) : Host.Outcome State Fault Refusal := live computeCompletes s

end Sys2Proof.Machine
end

