-- ==== Sys2Proof/Machine/Slide.lean ====
section
/-! DEFINITION. The commands of the Dynamic Brake Supervisor and the Wheel Slide Controller between COMPUTE
events (03, 05): the excite and rest times, AXLE_CUTOUT, the dump limit and the dump rest. -/

namespace Sys2Proof.Machine

/-- R43: the excite time has reached Excite Time (log 2). -/
def exciteTimedOut (s : State) : State :=
  if s.dbs.state = .exciting then
    exciteExpired (s.onDbs fun d =>
      { d with exciteTime := max d.exciteTime s.pst.active.dbrake.exciteTime })
  else s

/-- EXCITE_TIME_EXPIRY (R43). -/
def execExciteTimeExpiry (s : State) : Host.Outcome State Fault Refusal := live exciteTimedOut s

/-- R45: the rest time has reached Rest Time (log 2). -/
def restTimedOut (s : State) : State :=
  if s.dbs.state = .rest then
    restExpired (s.onDbs fun d => { d with restTime := max d.restTime s.pst.active.dbrake.restTime })
  else s

/-- REST_TIME_EXPIRY (R45). -/
def execRestTimeExpiry (s : State) : Host.Outcome State Fault Refusal := live restTimedOut s

/-- The AXLE_CUTOUT reply (R196). -/
def cutoutReply (a : Axle) (s : State) : List Byte :=
  Result.ok.code :: (be 1 (s.wsc.get a).slide.code ++ be 1 (s.wsc.get a).causes)

/-- R88: the cut-out flag set or cleared; a repeated request changes nothing. -/
def setCutout (a : Axle) (on : Bool) (s : State) : State :=
  if (s.wsc.get a).cutout = on then s
  else if on then addCause a .cutout s
  else removeCause a .cutout s

/-- R88: the execution of AXLE_CUTOUT. -/
def cutoutBody (axle onOff : Byte) (s : State) : State × Answer :=
  if s.mdc.mode = .unconfigured then (s, .reply (Result.state.code :: be 2 0))
  else
    match Axle.ofNumber? axle.toNat, onOff.toNat with
    | some a, 0 =>
      let s := setCutout a false s
      (s, .reply (cutoutReply a s))
    | some a, 1 =>
      let s := setCutout a true s
      (s, .reply (cutoutReply a s))
    | _, _ => (s, .reply (Result.range.code :: be 2 0))

/-- AXLE_CUTOUT (R88). -/
def execAxleCutout (tag axle onOff : Byte) (s : State) : Host.Outcome State Fault Refusal :=
  live (request 0x0E tag true true (cutoutBody axle onOff)) s

/-- R78: the dump-open time of an axle has reached Dump Limit (log 2). -/
def dumpTimedOut (a : Axle) (s : State) : State :=
  if (s.wsc.get a).dumpOpen then
    dumpLimited a (s.onWsc fun w => w.modify a fun x =>
      { x with dumpOpenTime := max x.dumpOpenTime s.pst.active.slide.dumpLimit })
  else s

/-- DUMP_LIMIT_EXPIRY (R78). -/
def execDumpLimitExpiry (axle : Axle) (s : State) : Host.Outcome State Fault Refusal :=
  live (dumpTimedOut axle) s

/-- R80: the dump rest of an axle has run out (log 2). -/
def dumpRested (a : Axle) (s : State) : State :=
  s.onWsc fun w => w.modify a fun x => { x with dumpRest := 0 }

/-- DUMP_REST_EXPIRY (R80). -/
def execDumpRestExpiry (axle : Axle) (s : State) : Host.Outcome State Fault Refusal :=
  live (dumpRested axle) s

end Sys2Proof.Machine
end

