-- ==== Sys2Proof/Machine/HostLink.lean ====
section
/-! DEFINITION. The commands of the Host Link Port and Event Unit (11): STATUS_READ, NOTICE_MASK, the bytes
and records received, the record sent. -/

namespace Sys2Proof.Machine

/-- R188: the execution of STATUS_READ. -/
def statusReadBody (s : State) : State × Answer := (clearStatus s, .reply (statusReply s))

/-- STATUS_READ (R188). -/
def execStatusRead (tag : Byte) (s : State) : Host.Outcome State Fault Refusal :=
  live (request 0x18 tag true true statusReadBody) s

/-- R189: the execution of NOTICE_MASK. -/
def noticeMaskBody (notice attention : KindSet) (s : State) : State × Answer :=
  if kindSetOk notice && kindSetOk attention then
    (s.onHlp fun h => { h with noticeMask := notice, attentionMask := attention }, codeOnly .ok)
  else (s, codeOnly .range)

/-- NOTICE_MASK (R189). -/
def execNoticeMask (tag : Byte) (notice attention : KindSet) (s : State) :
    Host.Outcome State Fault Refusal :=
  live (request 0x19 tag true true (noticeMaskBody notice attention)) s

/-- A request kind's allowed length and its execution, by kind code, from its payload (R195, R196).
Nothing for a kind that is no request. -/
def requestOf (kind : Nat) (p : List Byte) : Option (Bool × (State → State × Answer)) :=
  let n := p.length
  let w16 (o : Nat) : BitVec 16 := BitVec.ofNat 16 (ofBe (field p o 2))
  let w32 (o : Nat) : BitVec 32 := BitVec.ofNat 32 (ofBe (field p o 4))
  let w64 (o : Nat) : BitVec 64 := BitVec.ofNat 64 (ofBe (field p o 8))
  let b := byteAt p
  let listOk := 10 ≤ n && n ≤ 250 && (n - 2) % 8 == 0
  match kind with
  | 0x01 => some (n == 5, demandBody (w16 0) (w16 2) ((b 4).getLsbD 0) ((b 4).getLsbD 1))
  | 0x02 => some (n == 0, emergencyResetBody)
  | 0x03 => some (n == 0, startBody)
  | 0x04 => some (n == 0, stopBody)
  | 0x05 => some (n == 0, parkBody)
  | 0x06 => some (n == 0, unparkBody)
  | 0x07 => some (n == 0, resetBody)
  | 0x08 => some (listOk, paramWriteBody (b 0) (b 1) (words (p.drop 2)))
  | 0x09 => some (n == 4, paramReadBody (b 0) (b 1) (b 2) (b 3))
  | 0x0A => some (1 ≤ n && n ≤ 6, paramCommitBody p)
  | 0x0B => some (listOk, schedWriteBody (b 0) (b 1) (words (p.drop 2)))
  | 0x0C => some (n == 3, schedReadBody (b 0) (b 1) (b 2))
  | 0x0D => some (n == 1, selectBody (b 0))
  | 0x0E => some (n == 2, cutoutBody (b 0) (b 1))
  | 0x0F => some (n == 2, markBody (w16 0))
  | 0x10 => some (n == 1, incidentListBody (b 0))
  | 0x11 => some (n == 1, protectBody (b 0))
  | 0x12 => some (n == 1, releaseBody (b 0))
  | 0x13 => some (n == 0, logClearBody)
  | 0x14 => some (n == 0, ringClearBody)
  | 0x15 => some (n == 8, readSnapshotsBody (b 0) (b 1) (w32 2) (b 6) (b 7))
  | 0x16 => some (n == 6, readEventsBody (b 0) (w32 1) (b 5))
  | 0x17 => some (n == 0, readAxlesBody)
  | 0x18 => some (n == 0, statusReadBody)
  | 0x19 => some (n == 16, noticeMaskBody (w64 0) (w64 8))
  | _ => none

/-- R183: a complete record is judged for admission and, if admitted, executed. The bytes that the assembler
has of another record stand (log 65). -/
def hostRecord (kind tag : Byte) (payload : List Byte) (s : State) : State :=
  match requestOf kind.toNat payload with
  | some (ok, body) => request kind tag true ok body s
  | none => request kind tag false true (fun s => (s, codeOnly .unknown)) s

/-- HOST_RECORD_RECEIVED (R183). -/
def execHostRecordReceived (kind tag : Byte) (payload : List Byte) (s : State) :
    Host.Outcome State Fault Refusal :=
  live (hostRecord kind tag payload) s

/-- R182: a framing error; the assembler hunts again. -/
def framingError (h : Hlp) : Hlp :=
  { h with assembler := none, framingErrors := satInc h.framingErrors }

/-- R182: a gap above 5 ms within a record. -/
def byteGap (s : State) : State :=
  match s.hlp.assembler with
  | some _ => s.onHlp framingError
  | none => s

/-- HOST_BYTE_GAP_TIMEOUT (R182). -/
def execHostByteGapTimeout (s : State) : Host.Outcome State Fault Refusal := live byteGap s

/-- R182: the bytes after the start byte of a record whose last CRC byte has arrived. -/
def completeRecord (bytes : List Byte) (s : State) : State :=
  let s := s.onHlp fun h => { h with assembler := none }
  let body := bytes.take (bytes.length - 2)
  if crcBytes body = bytes.drop (bytes.length - 2) then
    hostRecord (byteAt bytes 1) (byteAt bytes 2) (body.drop 3) s
  else s.onHlp fun h => { h with crcErrors := satInc h.crcErrors }

/-- R182: one more byte of a record. -/
def joinByte (bytes : List Byte) (s : State) : State :=
  let len := (byteAt bytes 0).toNat
  if 250 < len then s.onHlp framingError
  else if bytes.length = len + 5 then completeRecord bytes s
  else s.onHlp fun h => { h with assembler := some bytes }

/-- R182: a byte received. -/
def byteReceived (byte : Byte) (stopBit : Bool) (s : State) : State :=
  if !stopBit then s.onHlp framingError
  else
    match s.hlp.assembler with
    | some bytes => joinByte (bytes ++ [byte]) s
    | none => if byte = 0xA5#8 then s.onHlp fun h => { h with assembler := some [] } else s

/-- HOST_BYTE_RECEIVED (R182). -/
def execHostByteReceived (byte : Byte) (stopBit : Bool) (s : State) :
    Host.Outcome State Fault Refusal :=
  live (byteReceived byte stopBit) s

/-- R185: the record being sent has left; behind the reply of RESET nothing more is sent (R180). -/
def recordSent (s : State) : State :=
  match s.hlp.sending with
  | some x =>
    let s := s.onHlp fun h => { h with sending := none }
    if x.record.source = .resetReply then s.onSys fun y => { y with resetReplySent := true }
    else startTx s
  | none => s

/-- HOST_RECORD_SENT (R185). -/
def execHostRecordSent (s : State) : Host.Outcome State Fault Refusal := live recordSent s

end Sys2Proof.Machine
end

