-- ==== Sys2Proof/Machine/Dispatch.lean ====
section
/-! DEFINITION. The meaning of each command: one arm for each row of spec/opcode_table.json. -/

namespace Sys2Proof.Machine

/-- What a command does to everything but the queue. -/
def exec (i : Instr) (s : State) : Host.Outcome State Fault Refusal :=
  match i with
  | .demand tag dReq indep dbEnable emergency => Sys2Proof.Machine.execDemand tag dReq indep dbEnable emergency s
  | .emergencyReset tag => Sys2Proof.Machine.execEmergencyReset tag s
  | .start tag => Sys2Proof.Machine.execStart tag s
  | .stop tag => Sys2Proof.Machine.execStop tag s
  | .park tag => Sys2Proof.Machine.execPark tag s
  | .unpark tag => Sys2Proof.Machine.execUnpark tag s
  | .reset tag => Sys2Proof.Machine.execReset tag s
  | .paramWrite tag set first values => Sys2Proof.Machine.execParamWrite tag set first values s
  | .paramRead tag set copy first count => Sys2Proof.Machine.execParamRead tag set copy first count s
  | .paramCommit tag sets => Sys2Proof.Machine.execParamCommit tag sets s
  | .schedWrite tag area first descriptors => Sys2Proof.Machine.execSchedWrite tag area first descriptors s
  | .schedRead tag area first count => Sys2Proof.Machine.execSchedRead tag area first count s
  | .scheduleSelect tag area => Sys2Proof.Machine.execScheduleSelect tag area s
  | .axleCutout tag axle onOff => Sys2Proof.Machine.execAxleCutout tag axle onOff s
  | .mark tag value => Sys2Proof.Machine.execMark tag value s
  | .incidentList tag slot => Sys2Proof.Machine.execIncidentList tag slot s
  | .protect tag slot => Sys2Proof.Machine.execProtect tag slot s
  | .release tag slot => Sys2Proof.Machine.execRelease tag slot s
  | .logClear tag => Sys2Proof.Machine.execLogClear tag s
  | .ringClear tag => Sys2Proof.Machine.execRingClear tag s
  | .readSnapshots tag source cont first countStride mask => Sys2Proof.Machine.execReadSnapshots tag source cont first countStride mask s
  | .readEvents tag cont first count => Sys2Proof.Machine.execReadEvents tag cont first count s
  | .readAxles tag => Sys2Proof.Machine.execReadAxles tag s
  | .statusRead tag => Sys2Proof.Machine.execStatusRead tag s
  | .noticeMask tag notice attention => Sys2Proof.Machine.execNoticeMask tag notice attention s
  | .hostRecordReceived kind tag payload => Sys2Proof.Machine.execHostRecordReceived kind tag payload s
  | .hostByteGapTimeout => Sys2Proof.Machine.execHostByteGapTimeout s
  | .hostRecordSent => Sys2Proof.Machine.execHostRecordSent s
  | .beginSoftReset completes => Sys2Proof.Machine.execBeginSoftReset completes s
  | .supplyApplied => Sys2Proof.Machine.execSupplyApplied s
  | .resetInputAsserted completes => Sys2Proof.Machine.execResetInputAsserted completes s
  | .resetEnd emergency rate1 rate0 directoryDamaged emergencyFirst => Sys2Proof.Machine.execResetEnd emergency rate1 rate0 directoryDamaged emergencyFirst s
  | .emergencyInputRise => Sys2Proof.Machine.execEmergencyInputRise s
  | .emergencyInputFall => Sys2Proof.Machine.execEmergencyInputFall s
  | .syncRisingEdge => Sys2Proof.Machine.execSyncRisingEdge s
  | .frameTimerExpiry => Sys2Proof.Machine.execFrameTimerExpiry s
  | .slotIntervalExpiry => Sys2Proof.Machine.execSlotIntervalExpiry s
  | .nodeRequestSent => Sys2Proof.Machine.execNodeRequestSent s
  | .echoMismatch => Sys2Proof.Machine.execEchoMismatch s
  | .nodeReplyStart line => Sys2Proof.Machine.execNodeReplyStart line s
  | .nodeRecordReceived line bytes => Sys2Proof.Machine.execNodeRecordReceived line bytes s
  | .nodeReplyGapExpiry => Sys2Proof.Machine.execNodeReplyGapExpiry s
  | .responseTimeoutExpiry => Sys2Proof.Machine.execResponseTimeoutExpiry s
  | .computeComplete => Sys2Proof.Machine.execComputeComplete s
  | .demandTimeoutExpiry => Sys2Proof.Machine.execDemandTimeoutExpiry s
  | .silentHoldExpiry => Sys2Proof.Machine.execSilentHoldExpiry s
  | .exciteTimeExpiry => Sys2Proof.Machine.execExciteTimeExpiry s
  | .restTimeExpiry => Sys2Proof.Machine.execRestTimeExpiry s
  | .dumpLimitExpiry axle => Sys2Proof.Machine.execDumpLimitExpiry axle s
  | .dumpRestExpiry axle => Sys2Proof.Machine.execDumpRestExpiry axle s
  | .parkingTimeExpiry => Sys2Proof.Machine.execParkingTimeExpiry s
  | .readTimeoutExpiry => Sys2Proof.Machine.execReadTimeoutExpiry s
  | .scrubBlockDue => Sys2Proof.Machine.execScrubBlockDue s
  | .scrubPeriodExpiry => Sys2Proof.Machine.execScrubPeriodExpiry s
  | .timeTagWrap => Sys2Proof.Machine.execTimeTagWrap s
  | .snapshotWriteDone => Sys2Proof.Machine.execSnapshotWriteDone s
  | .logWriteDone => Sys2Proof.Machine.execLogWriteDone s
  | .copyDone faults asRead => Sys2Proof.Machine.execCopyDone faults asRead s
  | .scrubDone corrected failing => Sys2Proof.Machine.execScrubDone corrected failing s
  | .readItemDone faults asRead => Sys2Proof.Machine.execReadItemDone faults asRead s
  | .hostByteReceived byte stopBit => Sys2Proof.Machine.execHostByteReceived byte stopBit s
  | .powerLoss completes => Sys2Proof.Machine.execPowerLoss completes s

end Sys2Proof.Machine
end

