-- ==== Sys2Proof/Safety.lean ====
section
/-! DEFINITION. What safety means for this block (a step answers a next state: `Fault` has no constructor
and no meaning refuses), and the words the statements use: admission, the records to be sent, the parts of
State an operation leaves alone, the invariants. -/

namespace Sys2Proof.Machine

/-- A step of this state neither faults nor refuses. -/
def safeStep (s : State) : Prop := ∃ t, step s = .next t

/-- The part runs, no RESET waits, a reply place is free and the request queue has room (R183). -/
def Admits (s : State) : Prop :=
  s.sys.phase = .live ∧ s.sys.resetAsked = false ∧ placesUsed s.hlp < 8
    ∧ s.hlp.requests.length < 4

/-- The records to be sent: the one being sent and those waiting. -/
def outbox (h : Hlp) : List TxRecord :=
  (match h.sending with | some x => [x.record] | none => []) ++ h.waiting

/-- The reply to a request is among the records to be sent. -/
def replied (kind tag : Byte) (payload : List Byte) (t : State) : Prop :=
  (⟨.reply, kind, tag, payload⟩ : TxRecord) ∈ outbox t.hlp

/-- The payload lengths that admission allows a request kind (R195); none for a kind that is no
request. -/
def allowedLength (kind length : Nat) : Prop :=
  match kind with
  | 0x01 => length = 5
  | 0x02 | 0x03 | 0x04 | 0x05 | 0x06 | 0x07 | 0x13 | 0x14 | 0x17 | 0x18 => length = 0
  | 0x08 | 0x0B => ∃ k, 1 ≤ k ∧ k ≤ 31 ∧ length = 2 + 8 * k
  | 0x09 => length = 4
  | 0x0A => 1 ≤ length ∧ length ≤ 6
  | 0x0C => length = 3
  | 0x0D | 0x10 | 0x11 | 0x12 => length = 1
  | 0x0E | 0x0F => length = 2
  | 0x15 => length = 8
  | 0x16 => length = 6
  | 0x19 => length = 16
  | _ => False

/-- The attempt that begins for a slot at the present clock (R96): its request carries the node's
sequence number and what the owners hold. -/
def attemptNow (number : Nat) (line : Line) (kind : Transaction) (node : Node) (s : State) : Attempt :=
  let seq := s.nlc.seq.get node
  let request := nodeRecord node.address kind.code seq (requestPayload kind node s)
  ⟨number, line, seq, request, s.pst.active.link.responseTimeout,
    .sending (s.sys.clock + 5 * request.length)⟩

/-- What falls due in a state by the model's own clock (log 1): a count that has reached its limit, and the
slot, the transaction and the record in progress that have come to their end. -/
def Due (s : State) : Instr → Prop
  | .demandTimeoutExpiry => s.mdc.mode = .running ∧ s.diu.silence = .normal
      ∧ s.pst.active.blend.demandTimeout < s.diu.silenceTime
  | .silentHoldExpiry => s.mdc.mode = .running ∧ s.diu.silence = .silentHold
      ∧ s.pst.active.blend.silentHold ≤ s.diu.holdTime
  | .exciteTimeExpiry => s.dbs.state = .exciting ∧ s.pst.active.dbrake.exciteTime ≤ s.dbs.exciteTime
  | .restTimeExpiry => s.dbs.state = .rest ∧ s.pst.active.dbrake.restTime ≤ s.dbs.restTime
  | .dumpLimitExpiry a => (s.wsc.get a).dumpOpen = true
      ∧ s.pst.active.slide.dumpLimit ≤ (s.wsc.get a).dumpOpenTime
  | .parkingTimeExpiry => s.mdc.mode = .parking ∧ 10000 ≤ s.mdc.parkingTime
  | .readTimeoutExpiry => ∃ w ∈ s.hlp.requests, ∃ r, w.body = .read r ∧ r.service = none
      ∧ s.pst.active.recorder.readTimeout ≤ r.waitTime
  | .scrubPeriodExpiry => s.pst.active.recorder.scrubPeriod * 1000 ≤ s.rma.passTimer
      ∧ s.rma.lateRaised = false
  | .beginSoftReset completes => s.sys.resetReplySent = true ∧ completes = true
  | .frameTimerExpiry => s.nlc.link ≠ .idle ∧ s.nlc.awaitFirstEdge = false
      ∧ s.pst.active.link.startSource ≠ .sync ∧ s.nlc.nextDue ≤ s.sys.clock
  | .slotIntervalExpiry => ∃ slot x, s.nlc.progress = .between slot x ∧ x ≤ s.sys.clock
  | .computeComplete => ∃ slot start m x, s.nlc.progress = .compute slot start m x ∧ x ≤ s.sys.clock
  | .nodeRequestSent => ∃ slot start a x, s.nlc.progress = .attempt slot start a
      ∧ a.phase = .sending x ∧ x ≤ s.sys.clock
  | .responseTimeoutExpiry => ∃ slot start a x, s.nlc.progress = .attempt slot start a
      ∧ a.phase = .awaiting x ∧ x ≤ s.sys.clock
  | .snapshotWriteDone => ∃ x, s.rma.memory = some ⟨.snapshotWrite, x⟩ ∧ x ≤ s.sys.clock
  | .logWriteDone => ∃ x, s.rma.memory = some ⟨.logWrite, x⟩ ∧ x ≤ s.sys.clock
  | .copyDone faults asRead => faults = [] ∧ asRead = none
      ∧ ∃ x, s.rma.memory = some ⟨.copy, x⟩ ∧ x ≤ s.sys.clock
  | .scrubDone corrected failing => corrected = 0 ∧ failing = []
      ∧ ∃ x, s.rma.memory = some ⟨.scrub, x⟩ ∧ x ≤ s.sys.clock
  | .readItemDone faults asRead => faults = [] ∧ asRead = none
      ∧ ∃ x, s.rma.memory = some ⟨.readItem, x⟩ ∧ x ≤ s.sys.clock
  | .scrubBlockDue => s.rma.memory = none
      ∧ s.rma.scrubPos * s.pst.active.recorder.scrubPeriod * 1000 / 4096 ≤ s.rma.passTimer
  | .hostRecordSent => ∃ x, s.hlp.sending = some x ∧ x.doneAt ≤ s.sys.clock
  | _ => False

/-- The read cursor of a source (R164). -/
def cursorOf (src : ReadSource) (m : Rma) : Option Int :=
  match src with
  | .ring => m.ringCursor.map fun n => (n : Int)
  | .log => m.logCursor.map fun n => (n : Int)
  | .slot k => m.slotCursors.get k

/-- The frame of a command that may raise events: beside record memory, the log buffer, the latched set and
the records to be sent, everything stands. -/
structure SameBrakes (s t : State) : Prop where
  pending : t.pending = s.pending
  sys : t.sys = s.sys
  diu : t.diu = s.diu
  ble : t.ble = s.ble
  dbs : t.dbs = s.dbs
  asu : t.asu = s.asu
  wsc : t.wsc = s.wsc
  nlc : t.nlc = s.nlc
  pst : t.pst = s.pst
  mdc : t.mdc = s.mdc
  assembler : t.hlp.assembler = s.hlp.assembler
  framingErrors : t.hlp.framingErrors = s.hlp.framingErrors
  crcErrors : t.hlp.crcErrors = s.hlp.crcErrors
  overrunErrors : t.hlp.overrunErrors = s.hlp.overrunErrors
  noticeMask : t.hlp.noticeMask = s.hlp.noticeMask
  attentionMask : t.hlp.attentionMask = s.hlp.attentionMask
  reportDivider : t.hlp.reportDivider = s.hlp.reportDivider
  capture : t.rma.capture = s.rma.capture
  gap : t.rma.gap = s.rma.gap
  scrubPos : t.rma.scrubPos = s.rma.scrubPos
  passTimer : t.rma.passTimer = s.rma.passTimer
  lateRaised : t.rma.lateRaised = s.rma.lateRaised

/-- The frame of a command that raises no event: record memory and what waits to be written into it, the
latched set and the overflow flag stand as well. -/
structure SameMemory (s t : State) : Prop extends SameBrakes s t where
  irc : t.irc = s.irc
  logBuf : t.rma.logBuf = s.rma.logBuf
  latched : t.hlp.latched = s.hlp.latched
  overflow : t.hlp.overflow = s.hlp.overflow

/-- The event with this kind, subject and values, at the present time tag, is the next to enter the log
(R137). -/
def nextEntry (k : EventKind) (subject : Subject) (v1 v2 : Option Int) (s : State) : LogEntry :=
  ⟨(assignLog s.irc).lastLog, s.irc.timeTag, k, subject, v1, v2, false⟩

/-- The kind is in the latched event set. -/
def isLatched (k : EventKind) (s : State) : Prop := k.mem s.hlp.latched = true

/-- The event was the first raised from `s` on: its log entry waits to be written and its kind is latched
(R137, R155, R186). -/
def raised (k : EventKind) (subject : Subject) (v1 v2 : Option Int) (s t : State) : Prop :=
  nextEntry k subject v1 v2 s ∈ t.rma.logBuf ∧ isLatched k t

/-- An event of this kind, subject and values waits to be written, and its kind is latched. -/
def logged (k : EventKind) (subject : Subject) (v1 v2 : Option Int) (t : State) : Prop :=
  (∃ e ∈ t.rma.logBuf, e.kind = k ∧ e.subject = subject ∧ e.value1 = v1 ∧ e.value2 = v2)
    ∧ isLatched k t

/-- What setting the latch does beyond the DIU, the stored I being `indep`: every axle in DUMP goes to RELIEF
with its dump closed (R79); the dynamic brake, if excited, goes to REST without effort (R44); in RUNNING the
outputs are those of the emergency blend (R33), under the park hold the targets are raised (R173), and in the
other modes the targets stand. -/
structure LatchActs (indep : Nat) (s t : State) : Prop where
  dumps : ∀ a, t.wsc.get a = if (s.wsc.get a).slide = .dump then { s.wsc.get a with
      slide := .relief, dumpOpen := false
      dumpRest := if (s.wsc.get a).dumpOpen then s.pst.active.slide.dumpRest
        else (s.wsc.get a).dumpRest }
    else s.wsc.get a
  excited : s.dbs.state = .exciting ∨ s.dbs.state = .available ∨ s.dbs.state = .cool →
    t.dbs.state = .rest ∧ t.dbs.restTime = 0 ∧ t.dbs.pendingEnable = false
    ∧ ∀ a, t.dbs.capacity.get a = 0 ∧ (t.ble.axles.get a).command = 0
  unexcited : s.dbs.state = .off ∨ s.dbs.state = .lost ∨ s.dbs.state = .rest →
    t.dbs.state = s.dbs.state
  running : s.mdc.mode = .running → t.ble.eTotal = 0 ∧ t.ble.aTotal = 0 ∧ t.ble.emergencyFlag = true
    ∧ ∀ a, let x := t.ble.axles.get a
      x.command = 0 ∧ x.airShare = 0 ∧ x.clamped = false
      ∧ x.target = t.pst.active.blend.emergencyPressure
  parked : s.mdc.mode = .parking ∨ s.mdc.mode = .parked ∨ s.mdc.mode = .unparking →
    t.ble.emergencyFlag = true ∧ ∀ a, (t.ble.axles.get a).target
      = max (max t.pst.active.blend.parkPressure indep) t.pst.active.blend.emergencyPressure
  idle : s.mdc.mode = .unconfigured ∨ s.mdc.mode = .ready ∨ s.mdc.mode = .stopped →
    t.ble.emergencyFlag = s.ble.emergencyFlag
    ∧ ∀ a, (t.ble.axles.get a).target = (s.ble.axles.get a).target

/-- What the activation of a BLEND set does at once, by its new values: the stored I is kept within the ceiling
(R2), and in RUNNING a silence count already past its new limit expires (R8, log 16), with what that expiry
does. -/
def BlendActs (s t : State) : Prop :=
  let b := t.pst.active.blend
  let kept : Diu := { s.diu with indep := min s.diu.indep b.ceiling }
  let expires := s.mdc.mode = .running ∧ s.diu.silence = .normal ∧ b.demandTimeout < s.diu.silenceTime
  let falls := (expires ∧ b.silentHold = 0)
    ∨ (s.mdc.mode = .running ∧ s.diu.silence = .silentHold ∧ b.silentHold ≤ s.diu.holdTime)
  let sets := b.silentEmergency && s.diu.latch.isNone
  (¬ expires → ¬ falls → t.diu = kept)
  ∧ (¬ falls ∨ sets = false → t.dbs.state = s.dbs.state ∧ ∀ a, t.wsc.get a = s.wsc.get a)
  ∧ (expires → logged .hostSilent .absent (some (s.diu.dReq : Int)) none t)
  ∧ (expires → b.silentHold ≠ 0 → t.diu = { kept with silence := .silentHold, holdTime := 0 })
  ∧ (falls → t.diu = { kept with
      silence := .silentFallback, dReq := b.fallbackDemand
      holdTime := if s.diu.silence = .normal then 0 else s.diu.holdTime
      latch := if sets then some .silence else s.diu.latch
      dEff := if sets then 6000 else s.diu.dEff })
  ∧ (falls → sets = true → LatchActs kept.indep s t ∧ isLatched .emergencyOn t)

/-- What the activation of a SLIDE set does at once: a dump open for the new Dump Limit is closed with
DUMP_LIMIT, and nothing else moves (R92). -/
def SlideActs (s t : State) : Prop :=
  let p := t.pst.active.slide
  ∀ a, let w := s.wsc.get a
    let limited := w.dumpOpen = true ∧ p.dumpLimit ≤ w.dumpOpenTime
    (limited → w.slide = .dump →
      t.wsc.get a = { w with slide := .relief, dumpOpen := false, dumpRest := p.dumpRest }
      ∧ (t.ble.axles.get a).command = 0 ∧ t.dbs.capacity.get a = 0 ∧ isLatched .dumpLimit t)
    ∧ (¬ limited → t.wsc.get a = w ∧ (t.ble.axles.get a).command = (s.ble.axles.get a).command
      ∧ t.dbs.capacity.get a = s.dbs.capacity.get a)

/-- What the activation of a DBRAKE set does at once: an excite time or a rest time already at its new limit
expires (R55, log 17), and an available brake has its capacities formed again, also before its first COMPUTE
(log 46), and its electric commands lowered to them (R22, R54). -/
def DbrakeActs (s t : State) : Prop :=
  let p := t.pst.active.dbrake
  let allowed := s.mdc.mode = .running ∧ s.diu.latch = none ∧ s.nlc.health.db.state ≠ .lost
    ∧ s.dbs.nodeStatus.getLsbD 0 = false ∧ s.dbs.nodeStatus.getLsbD 1 = false
  (s.dbs.state = .exciting → p.exciteTime ≤ s.dbs.exciteTime →
    t.dbs.state = .lost ∧ t.dbs.cleanFrames = 0 ∧ (∀ a, t.dbs.eRep.get a = 0)
    ∧ logged .dbExciteFail (.node .db) (some (p.exciteTime : Int)) none t)
  ∧ (s.dbs.state = .exciting → s.dbs.exciteTime < p.exciteTime →
    t.dbs.state = .exciting ∧ t.dbs.exciteTime = s.dbs.exciteTime)
  ∧ (s.dbs.state = .rest → p.restTime ≤ s.dbs.restTime → t.dbs.pendingEnable = false
    ∧ (s.dbs.pendingEnable = true → allowed → t.dbs.state = .exciting ∧ t.dbs.exciteTime = 0)
    ∧ (s.dbs.pendingEnable = false ∨ ¬ allowed →
      t.dbs.state = .off ∧ ∀ a, t.dbs.eRep.get a = 0))
  ∧ (s.dbs.state = .rest → s.dbs.restTime < p.restTime →
    t.dbs.state = .rest ∧ t.dbs.pendingEnable = s.dbs.pendingEnable)
  ∧ (s.dbs.state = .available ∨ s.dbs.state = .cool → t.dbs.state = s.dbs.state
    ∧ ∀ a, let w := s.wsc.get a
      (w.slide = .relief ∨ w.slide = .dump ∨ w.slide = .isolated → t.dbs.capacity.get a = 0)
      ∧ (w.slide = .normal ∨ w.slide = .recover → t.dbs.capacity.get a
        = min (if s.dbs.state = .cool then min (p.envelope s.asu.vRef) p.continuous
            else p.envelope s.asu.vRef) w.ceiling)
      ∧ (t.ble.axles.get a).command = min (s.ble.axles.get a).command (t.dbs.capacity.get a))
  ∧ (s.dbs.state = .off ∨ s.dbs.state = .lost → t.dbs.state = s.dbs.state
    ∧ ∀ a, t.dbs.capacity.get a = s.dbs.capacity.get a
      ∧ (t.ble.axles.get a).command = (s.ble.axles.get a).command)

/-- What the activation of a RECORDER set does at once: a changed Ring Capacity clears the ring (R128); a read
whose wait is already at the new Read Timeout is answered TIMEOUT and leaves, shown with the memory BUSY; a
pass already at the new Scrub Period is late (R166). -/
def RecorderActs (s t : State) : Prop :=
  let p := t.pst.active.recorder
  t.irc.ringCapacity = p.ringCapacity
  ∧ t.irc.ring = (if p.ringCapacity = s.irc.ringCapacity then s.irc.ring else [])
  ∧ (s.rma.memory ≠ none → t.hlp.requests = s.hlp.requests.filter fun w =>
      match w.body with
      | .read r => !(r.service.isNone && decide (p.readTimeout ≤ r.waitTime))
      | .axles => true)
  ∧ (∀ tag r, ⟨tag, .read r⟩ ∈ s.hlp.requests → r.service = none → p.readTimeout ≤ r.waitTime →
    s.sys.resetAsked = false → ∃ number : Nat,
      replied (match r.source with | .log => 0x16 | _ => 0x15) tag (15 :: (be 4 number ++ [0])) t)
  ∧ (p.scrubPeriod * 1000 ≤ s.rma.passTimer → s.rma.lateRaised = false → t.rma.lateRaised = true
    ∧ logged .scrubLate .absent (some (s.rma.scrubPos : Int)) (some (p.scrubPeriod : Int)) t)
  ∧ (s.rma.passTimer < p.scrubPeriod * 1000 ∨ s.rma.lateRaised = true →
    t.rma.lateRaised = s.rma.lateRaised)

/-- What the blocks do at once when one parameter set is activated, by its new values (07 Effects of activation
by set). A LINK set acts from the next use of its values on. -/
def Activated (x : ParamSet) (s t : State) : Prop :=
  match x with
  | .link => t.diu = s.diu ∧ t.dbs.state = s.dbs.state ∧ ∀ a, t.wsc.get a = s.wsc.get a
  | .wheel => ∀ a, (t.asu.axles.get a).fresh = false ∧ (t.asu.axles.get a).continuity = false
  | .blend => BlendActs s t
  | .slide => SlideActs s t
  | .dbrake => DbrakeActs s t
  | .recorder => RecorderActs s t

/-- The brake path's invariant. No electric command and no capacity without an available dynamic brake
(R23, R53); a dump is open only in DUMP, in RUNNING, with the latch clear (R75, R81, R90); under the latch
D_eff is 6000 (R11); no demand is above 6000, and the stored I is never above the active Service Pressure
Ceiling (R2, R3); Air Gain is never 0, and the envelope has its eight breakpoints (07). -/
structure BrakeInv (s : State) : Prop where
  noEffort : s.dbs.state ≠ .available → s.dbs.state ≠ .cool →
    (∀ a, (s.ble.axles.get a).command = 0) ∧ ∀ a, s.dbs.capacity.get a = 0
  dump : ∀ a, (s.wsc.get a).dumpOpen = true →
    (s.wsc.get a).slide = .dump ∧ s.mdc.mode = .running ∧ s.diu.latch = none
  latch : s.diu.latch.isSome = true → s.diu.dEff = 6000
  demand : s.diu.dReq ≤ 6000 ∧ s.diu.dEff ≤ 6000
    ∧ s.pst.staging.blend.fallbackDemand ≤ 6000 ∧ s.pst.active.blend.fallbackDemand ≤ 6000
  indep : s.diu.indep ≤ s.pst.active.blend.ceiling
  gain : 0 < s.pst.staging.blend.airGain ∧ 0 < s.pst.active.blend.airGain
  points : s.pst.staging.dbrake.points.length = 8 ∧ s.pst.active.dbrake.points.length = 8

/-- The link is IDLE in the modes in which it does not run (R105, R168, R169, R170). -/
def idleMode : Mode → Prop
  | .unconfigured | .ready | .stopped => True
  | _ => False

/-- The node link's invariant. The link is IDLE in the modes in which it does not run, and then no switch,
no set, no start and no halt is pending and no slot is in progress (R104, R105, R113, R125); a slot is in
progress exactly in a frame (R108); a validated area is not empty, and the link runs on one (R103, R169). -/
structure LinkInv (s : State) : Prop where
  modes : s.nlc.link = .idle ↔ idleMode s.mdc.mode
  idle : s.nlc.link = .idle → s.nlc.selected = s.nlc.inUse ∧ s.pst.pendingSets = []
    ∧ s.nlc.startPending = none ∧ s.nlc.haltRequested = false
  progress : s.nlc.progress ≠ .none ↔ s.nlc.link = .inFrame
  validated : ∀ k, (s.nlc.area k).validated = true → (s.nlc.area k).slots ≠ []
  running : s.nlc.link ≠ .idle → (s.nlc.area s.nlc.inUse).validated = true
    ∧ (s.nlc.area s.nlc.selected).validated = true

/-- The capacities a ring can have (R135). -/
def ringFits (n : Nat) : Prop := n = 256 ∨ n = 512 ∨ n = 1024 ∨ n = 2048

/-- The record path's invariant: the collections and buffers keep their bounds (R135, R138, R154, R155,
R183, R187), at most one slot is CAPTURING (R142), and a FROZEN slot has no PENDING position (R141). -/
structure RecordInv (s : State) : Prop where
  log : s.irc.log.length ≤ 1024
  ring : s.irc.ring.length ≤ s.irc.ringCapacity
  capacity : ringFits s.irc.ringCapacity ∧ ringFits s.pst.staging.recorder.ringCapacity
    ∧ ringFits s.pst.active.recorder.ringCapacity
  capture : s.rma.capture.length ≤ 2
  logBuf : s.rma.logBuf.length ≤ 16
  requests : s.hlp.requests.length ≤ 4
  notices : waitingOf .notice s.hlp ≤ 8
  oneCapturing : ∀ j k, (s.irc.slots.get j).isCapturing = true →
    (s.irc.slots.get k).isCapturing = true → j = k
  frozen : ∀ k p i, s.irc.slots.get k = .frozen p i → anyPending i.positions = false

end Sys2Proof.Machine
end

