-- ==== Sys2Proof/Certificates/Slice0/Obligations.lean ====
section
/-! DEFINITION. The statements for the provers: what a step is, what each command does, the invariants
every step keeps. -/

section
open Sys2Proof Sys2Proof.Machine

/-! ## Steps and invariants -/

/-- A step runs the command at the front of the queue on the state with the queue's rest. -/
def Obligations.StepRunsTheFrontCommand : Prop :=
  ∀ (c : Instr) (rest : List Instr) (s : State), s.pending = c :: rest →
    step s = exec c { s with pending := rest }

/-- No step faults or refuses. -/
def Obligations.EveryStepAnswersNext : Prop := ∀ s : State, safeStep s

/-- The model's choice of log 1: with an empty queue a step lets one microsecond pass, and what then falls due
waits in the queue. A part that does not run is left as it is. In a part that runs, within a millisecond only
the clock moves; at its end every count in milliseconds advances where its rule lets it run, a dump-open time
while its dump is open (log 48). A soft reset that falls due lets the transaction it cuts complete (log 9). A frame start that is due while the link waits comes before any time passes
(log 36). -/
def Obligations.EmptyQueueLetsAMicrosecondPass : Prop :=
  ∀ s : State, s.pending = [] →
    let starts := s.nlc.link = .waiting ∧ s.nlc.awaitFirstEdge = false
      ∧ s.pst.active.link.startSource ≠ .sync ∧ s.nlc.nextDue ≤ s.sys.clock
    (s.sys.phase ≠ .live → step s = .next s)
    ∧ (s.sys.phase = .live → starts → step s = .next { s with pending := [.frameTimerExpiry] })
    ∧ (s.sys.phase = .live → ¬ starts → s.sys.subMs < 999 → ∃ t, step s = .next t
        ∧ t = { s with
            pending := t.pending
            sys := { s.sys with clock := s.sys.clock + 1, subMs := s.sys.subMs + 1 } }
        ∧ ∀ c, c ∈ t.pending ↔ Due t c)
    ∧ (s.sys.phase = .live → ¬ starts → 999 ≤ s.sys.subMs → ∃ t, step s = .next t
        ∧ t.sys = { s.sys with clock := s.sys.clock + 1, subMs := 0 }
        ∧ t.ble = s.ble ∧ t.asu = s.asu ∧ t.nlc = s.nlc ∧ t.pst = s.pst
        ∧ t.diu = { s.diu with
            silenceTime := s.diu.silenceTime +
              (if s.mdc.mode = .running ∧ s.diu.silence = .normal then 1 else 0)
            holdTime := s.diu.holdTime +
              (if s.mdc.mode = .running ∧ s.diu.silence = .silentHold then 1 else 0) }
        ∧ t.dbs = { s.dbs with
            exciteTime := s.dbs.exciteTime + (if s.dbs.state = .exciting then 1 else 0)
            restTime := s.dbs.restTime + (if s.dbs.state = .rest then 1 else 0) }
        ∧ (∀ a, t.wsc.get a = { s.wsc.get a with
            dumpOpenTime := (s.wsc.get a).dumpOpenTime + (if (s.wsc.get a).dumpOpen then 1 else 0)
            dumpRest := (s.wsc.get a).dumpRest - 1 })
        ∧ t.irc = { s.irc with
            timeTag := s.irc.timeTag + (if s.irc.timeTag < 4294967295 then 1 else 0) }
        ∧ (∀ (i : Nat) (w : Waiting), s.hlp.requests[i]? = some w →
            t.hlp.requests[i]? = some (match w.body with
            | .axles => w
            | .read r => ⟨w.tag, .read { r with
                waitTime := r.waitTime + (if r.service = none then 1 else 0) }⟩))
        ∧ t.rma = { s.rma with passTimer := s.rma.passTimer + 1 }
        ∧ t.mdc = { s.mdc with
            parkingTime := if s.mdc.mode = .parking then min 10000 (s.mdc.parkingTime + 1)
              else s.mdc.parkingTime }
        ∧ ∀ c, c ∈ t.pending ↔ Due t c ∨ (c = .timeTagWrap ∧ 4294967295 ≤ s.irc.timeTag))

/-- Every step keeps the brake path's invariant, whatever its command. -/
def Obligations.StepKeepsBrakeInvariant : Prop :=
  ∀ s t : State, BrakeInv s → step s = .next t → BrakeInv t

/-- Every step keeps the node link's invariant, whatever its command. -/
def Obligations.StepKeepsLinkInvariant : Prop :=
  ∀ s t : State, LinkInv s → step s = .next t → LinkInv t

/-- Every step keeps the record path's invariant, whatever its command. -/
def Obligations.StepKeepsRecordInvariant : Prop :=
  ∀ s t : State, RecordInv s → step s = .next t → RecordInv t

/-- After reset the three invariants hold. -/
def Obligations.ResetHasInvariants : Prop :=
  BrakeInv State.reset ∧ LinkInv State.reset ∧ RecordInv State.reset

/-! ## The host link (11) -/

/-- A complete record that admission turns away is executed in no part: it is discarded after an accepted
RESET, counted as an overrun with no reply place free, and answered QUEUE_FULL, UNKNOWN or LENGTH in that
order. That bytes of another record stand in the assembler is the model's choice (log 65). -/
def Obligations.AdmissionTurnsRecordsAway : Prop :=
  ∀ (kind tag : Byte) (payload : List Byte) (s : State), s.sys.phase = .live →
    (s.sys.resetAsked = true → exec (.hostRecordReceived kind tag payload) s = .next (grant s))
    ∧ (s.sys.resetAsked = false → 8 ≤ placesUsed s.hlp →
        exec (.hostRecordReceived kind tag payload) s = .next (grant
          { s with hlp := { s.hlp with overrunErrors := min 65535 (s.hlp.overrunErrors + 1) } }))
    ∧ (s.sys.resetAsked = false → placesUsed s.hlp < 8 → 4 ≤ s.hlp.requests.length →
        ∃ t, exec (.hostRecordReceived kind tag payload) s = .next t ∧ SameMemory s t
          ∧ replied kind tag [5] t)
    ∧ (Admits s → (kind.toNat = 0 ∨ 0x19 < kind.toNat) →
        ∃ t, exec (.hostRecordReceived kind tag payload) s = .next t ∧ SameMemory s t
          ∧ replied kind tag [6] t)
    ∧ (Admits s → 1 ≤ kind.toNat → kind.toNat ≤ 0x19 → ¬ allowedLength kind.toNat payload.length →
        ∃ t, exec (.hostRecordReceived kind tag payload) s = .next t ∧ SameMemory s t
          ∧ replied kind tag [7] t)

/-- A received record of a request kind with a payload as R196 lays it out does what that request's own
command does: with its own row taken through admission and executed in the same step (log 4), and bits 2 to 7
of a DEMAND's flags ignored (log 11). A record that admission lets through, of a request kind with a length that
kind may have, is executed: it is answered, or its request waits for its answer. -/
def Obligations.RecordRunsItsRequest : Prop :=
  (∀ (kind tag : Byte) (payload : List Byte) (s : State), Admits s → 1 ≤ kind.toNat →
    kind.toNat ≤ 0x19 → allowedLength kind.toNat payload.length →
    ∃ t, exec (.hostRecordReceived kind tag payload) s = .next t
      ∧ ((∃ p, replied kind tag p t ∨ (⟨.resetReply, kind, tag, p⟩ : TxRecord) ∈ outbox t.hlp)
        ∨ ∃ w, ⟨tag, w⟩ ∈ t.hlp.requests))
  ∧ ∀ (tag a b c d e f g h : Byte) (s : State),
    exec (.hostRecordReceived 0x01 tag [a, b, c, d, e]) s
      = exec (.demand tag (a ++ b) (c ++ d) (e.getLsbD 0) (e.getLsbD 1)) s
    ∧ exec (.hostRecordReceived 0x02 tag []) s = exec (.emergencyReset tag) s
    ∧ exec (.hostRecordReceived 0x03 tag []) s = exec (.start tag) s
    ∧ exec (.hostRecordReceived 0x04 tag []) s = exec (.stop tag) s
    ∧ exec (.hostRecordReceived 0x05 tag []) s = exec (.park tag) s
    ∧ exec (.hostRecordReceived 0x06 tag []) s = exec (.unpark tag) s
    ∧ exec (.hostRecordReceived 0x07 tag []) s = exec (.reset tag) s
    ∧ exec (.hostRecordReceived 0x09 tag [a, b, c, d]) s = exec (.paramRead tag a b c d) s
    ∧ (∀ codes : List Byte,
      exec (.hostRecordReceived 0x0A tag codes) s = exec (.paramCommit tag codes) s)
    ∧ exec (.hostRecordReceived 0x0C tag [a, b, c]) s = exec (.schedRead tag a b c) s
    ∧ exec (.hostRecordReceived 0x0D tag [a]) s = exec (.scheduleSelect tag a) s
    ∧ exec (.hostRecordReceived 0x0E tag [a, b]) s = exec (.axleCutout tag a b) s
    ∧ exec (.hostRecordReceived 0x0F tag [a, b]) s = exec (.mark tag (a ++ b)) s
    ∧ exec (.hostRecordReceived 0x10 tag [a]) s = exec (.incidentList tag a) s
    ∧ exec (.hostRecordReceived 0x11 tag [a]) s = exec (.protect tag a) s
    ∧ exec (.hostRecordReceived 0x12 tag [a]) s = exec (.release tag a) s
    ∧ exec (.hostRecordReceived 0x13 tag []) s = exec (.logClear tag) s
    ∧ exec (.hostRecordReceived 0x14 tag []) s = exec (.ringClear tag) s
    ∧ exec (.hostRecordReceived 0x15 tag [a, b, c, d, e, f, g, h]) s
        = exec (.readSnapshots tag a b (c ++ d ++ e ++ f) g h) s
    ∧ exec (.hostRecordReceived 0x16 tag [a, b, c, d, e, f]) s
        = exec (.readEvents tag a (b ++ c ++ d ++ e) f) s
    ∧ exec (.hostRecordReceived 0x17 tag []) s = exec (.readAxles tag) s
    ∧ exec (.hostRecordReceived 0x18 tag []) s = exec (.statusRead tag) s
    ∧ (∀ values : List Word64,
      exec (.hostRecordReceived 0x08 tag (a :: b :: values.flatMap fun v => be 8 v.toNat)) s
        = exec (.paramWrite tag a b values) s
      ∧ exec (.hostRecordReceived 0x0B tag (a :: b :: values.flatMap fun v => be 8 v.toNat)) s
        = exec (.schedWrite tag a b values) s)
    ∧ ∀ notice attn : KindSet,
      exec (.hostRecordReceived 0x19 tag (be 8 notice.toNat ++ be 8 attn.toNat)) s
        = exec (.noticeMask tag notice attn) s

/-- The receive assembler: hunting, the three faults of a record, its bytes, and its end, where a good
CRC hands it to admission and a bad one counts a CRC error. -/
def Obligations.BytesAssembleARecord : Prop :=
  ∀ (byte : Byte) (s : State), s.sys.phase = .live →
    exec (.hostByteReceived byte false) s = .next (grant { s with hlp := { s.hlp with
        assembler := none, framingErrors := min 65535 (s.hlp.framingErrors + 1) } })
    ∧ (s.hlp.assembler = none → byte ≠ 0xA5 →
        exec (.hostByteReceived byte true) s = .next (grant s))
    ∧ (s.hlp.assembler = none → byte = 0xA5 → exec (.hostByteReceived byte true) s
        = .next (grant { s with hlp := { s.hlp with assembler := some [] } }))
    ∧ (s.hlp.assembler = none → exec .hostByteGapTimeout s = .next (grant s))
    ∧ ∀ got : List Byte, s.hlp.assembler = some got →
        let record := got ++ [byte]
        let body := record.take (record.length - 2)
        exec .hostByteGapTimeout s = .next (grant { s with hlp := { s.hlp with
          assembler := none, framingErrors := min 65535 (s.hlp.framingErrors + 1) } })
        ∧ ∀ length tail, record = length :: tail →
          (250 < length.toNat → exec (.hostByteReceived byte true) s
            = .next (grant { s with hlp := { s.hlp with
                assembler := none, framingErrors := min 65535 (s.hlp.framingErrors + 1) } }))
          ∧ (length.toNat ≤ 250 → record.length ≠ length.toNat + 5 →
              exec (.hostByteReceived byte true) s
                = .next (grant { s with hlp := { s.hlp with assembler := some record } }))
          ∧ (length.toNat ≤ 250 → record.length = length.toNat + 5 →
              be 2 (crc16 body).toNat ≠ record.drop (record.length - 2) →
              exec (.hostByteReceived byte true) s = .next (grant { s with hlp := { s.hlp with
                assembler := none, crcErrors := min 65535 (s.hlp.crcErrors + 1) } }))
          ∧ ∀ kind tag payload, length.toNat ≤ 250 → record.length = length.toNat + 5 →
              body = length :: kind :: tag :: payload →
              be 2 (crc16 body).toNat = record.drop (record.length - 2) →
              exec (.hostByteReceived byte true) s = exec (.hostRecordReceived kind tag payload)
                { s with hlp := { s.hlp with assembler := none } }

/-- A record that has left makes the transmitter start the oldest waiting one; behind the reply of RESET
nothing is sent. With no record being sent the command has no effect (log 2). -/
def Obligations.RecordSentStartsTheOldest : Prop :=
  ∀ s : State, s.sys.phase = .live →
    (s.hlp.sending = none → exec .hostRecordSent s = .next (grant s))
    ∧ ∀ x, s.hlp.sending = some x →
      (x.record.source = .resetReply → exec .hostRecordSent s = .next (grant
        { s with hlp := { s.hlp with sending := none }, sys := { s.sys with resetReplySent := true } }))
      ∧ (x.record.source ≠ .resetReply → s.sys.resetReplySent = false → s.hlp.waiting = [] →
          exec .hostRecordSent s = .next (grant { s with hlp := { s.hlp with sending := none } }))
      ∧ ∀ r rest, x.record.source ≠ .resetReply → s.sys.resetReplySent = false →
          s.hlp.waiting = r :: rest →
          ∃ time, exec .hostRecordSent s = .next (grant
            { s with hlp := { s.hlp with sending := some ⟨r, time⟩, waiting := rest } })

/-- STATUS_READ shows the values before it clears them: the latched set, the link error counts, the failed
counts and the overflow flag; the attention output is then released. That an absent last failure cause shows
as 0 is the model's choice (log 31). -/
def Obligations.StatusReadShowsAndClears : Prop :=
  ∀ (tag : Byte) (s : State), Admits s →
    ∃ t p, exec (.statusRead tag) s = .next t ∧ replied 0x18 tag p t
      ∧ p.length = 32 + 4 * s.nlc.records.length
      ∧ p.take 3 = [0, BitVec.ofNat 8 s.mdc.mode.code, BitVec.ofNat 8
          ((match s.mdc.mode with | .unconfigured | .parking | .unparking => 0 | _ => 1)
            + 2 * bit s.mdc.rollHold + 4 * bit s.diu.latch.isSome + 8 * bit s.hlp.overflow)]
      ∧ (p.drop 3).take 1
          = [(match s.diu.latch with
              | none => 0xFF | some .flag => 0 | some .input => 1 | some .silence => 2)]
      ∧ (p.drop 4).take 4 = [BitVec.ofNat 8 s.diu.silence.code, BitVec.ofNat 8 s.dbs.state.code,
          BitVec.ofNat 8 s.nlc.inUse.code, BitVec.ofNat 8 s.nlc.selected.code]
      ∧ (p.drop 8).take 1 = [BitVec.ofNat 8 (setMap s.pst.pendingSets)]
      ∧ (p.drop 9).take 22 = be 2 s.hlp.framingErrors ++ be 2 s.hlp.crcErrors
          ++ be 2 s.hlp.overrunErrors ++ be 8 s.hlp.latched.toNat ++ be 4 s.irc.timeTag
          ++ be 4 s.nlc.frameCounter
      ∧ (p.drop 31).take 1 = [BitVec.ofNat 8 s.nlc.records.length]
      ∧ p.drop 32 = (s.nlc.records.flatMap fun r =>
          [BitVec.ofNat 8 r.outcome.code,
            BitVec.ofNat 8 (match r.lastCause with | none => 0 | some c => c.code)]
            ++ be 2 r.failedCount)
      ∧ attention t.hlp = false
      ∧ SameMemory { s with
          nlc := { s.nlc with records := s.nlc.records.map fun r => { r with failedCount := 0 } }
          hlp := { s.hlp with
            latched := 0, framingErrors := 0, crcErrors := 0, overrunErrors := 0
            overflow := false } } t

/-- NOTICE_MASK replaces both masks in every mode, unless a map sets a bit that stands for no event kind;
no notice is placed for kinds already latched, and the trigger set stands. -/
def Obligations.NoticeMaskReplacesBothMasks : Prop :=
  ∀ (tag : Byte) (notice attn : KindSet) (s : State), Admits s →
    ((∀ i, i = 0 ∨ 48 ≤ i → notice.getLsbD i = false ∧ attn.getLsbD i = false) →
      ∃ t, exec (.noticeMask tag notice attn) s = .next t ∧ replied 0x19 tag [0] t
        ∧ (attention t.hlp = true ↔ s.hlp.latched &&& attn ≠ 0)
        ∧ (outbox t.hlp).filter (fun r => r.source == .notice)
            = (outbox s.hlp).filter (fun r => r.source == .notice)
        ∧ SameMemory { s with
            hlp := { s.hlp with noticeMask := notice, attentionMask := attn } } t)
    ∧ ((∃ i, (i = 0 ∨ 48 ≤ i) ∧ (notice.getLsbD i = true ∨ attn.getLsbD i = true)) →
      ∃ t, exec (.noticeMask tag notice attn) s = .next t ∧ replied 0x19 tag [8] t
        ∧ SameMemory s t)

/-! ## Demand intake (01) -/

/-- In UNCONFIGURED a DEMAND is refused with STATE and none of its fields is stored. In every other mode it
stores its four fields, clamped, restarts the silence time and ends a silence; with its emergency flag it
sets a clear latch, with all that the latch does; else the dumps stand. HOST_RESUMED is raised before
EMERGENCY_ON (log 33). Its reply shows what then stands. -/
def Obligations.DemandStoresItsFields : Prop :=
  ∀ (tag : Byte) (dReq i : BitVec 16) (db em : Bool) (s : State), Admits s →
    (s.mdc.mode = .unconfigured → ∃ t, exec (.demand tag dReq i db em) s = .next t
      ∧ SameMemory s t ∧ replied 0x01 tag [9, 0, 0, 0, 0, 0, 0, 0, 0] t)
    ∧ (s.mdc.mode ≠ .unconfigured →
      let ceiling := s.pst.active.blend.ceiling
      let sets := em && s.diu.latch.isNone
      let stored : Diu := { s.diu with
        dReq := min 6000 dReq.toNat, indep := min ceiling i.toNat, dbEnable := db
        demandEmergency := em, silence := .normal, silenceTime := 0
        latch := if sets then some .flag else s.diu.latch
        dEff := if sets then 6000 else s.diu.dEff }
      ∃ t, exec (.demand tag dReq i db em) s = .next t
        ∧ replied 0x01 tag ((if 6000 < dReq.toNat ∨ ceiling < i.toNat then 3 else 0)
            :: (be 2 stored.dReq ++ be 2 stored.indep ++ be 2 stored.dEff
              ++ be 1 (bit stored.latch.isSome) ++ [0])) t
        ∧ SameBrakes { s with diu := stored, ble := t.ble, dbs := t.dbs, wsc := t.wsc } t
        ∧ (s.diu.silence ≠ .normal →
            raised .hostResumed .absent (some s.diu.silence.code) (some s.diu.dReq) s t)
        ∧ (sets = true → logged .emergencyOn .absent (some 0) (some s.diu.dEff) t
          ∧ LatchActs stored.indep s t)
        ∧ (sets = false → t.wsc = s.wsc))

/-- What an accepted DEMAND that sets no latch does in the dynamic brake: in REST its enable flag is the
pending-enable; a clear flag withdraws a brake that is excited, with every electric command; else nothing. -/
def Obligations.DemandActsOnTheDynamicBrake : Prop :=
  ∀ (tag : Byte) (dReq i : BitVec 16) (db em : Bool) (s : State), Admits s →
    s.mdc.mode ≠ .unconfigured → (em = false ∨ s.diu.latch.isSome = true) →
    ∃ t, exec (.demand tag dReq i db em) s = .next t
      ∧ (s.dbs.state = .rest → t.dbs = { s.dbs with pendingEnable := db } ∧ t.ble = s.ble)
      ∧ (db = false → s.dbs.state = .exciting ∨ s.dbs.state = .available ∨ s.dbs.state = .cool →
          t.dbs = { s.dbs with
            state := .rest, restTime := 0, pendingEnable := false, capacity := .fill 0 }
          ∧ t.ble = { s.ble with axles := s.ble.axles.map fun x => { x with command := 0 } })
      ∧ (s.dbs.state = .off ∨ s.dbs.state = .lost ∨ (db = true ∧ s.dbs.state ≠ .rest) →
          t.dbs = s.dbs ∧ t.ble = s.ble)

/-- EMERGENCY_RESET clears the latch when the locomotive is at rest, the input deasserted and the demand
flag clear. D_eff becomes 0, nothing else of the brake path changes but the mark for the next COMPUTE (what it
does is in ComputeTakesOneRateStep), and the next COMPUTE raises D_eff from 0 toward D_req under Apply Rate in
RUNNING and holds 0 in the other modes. With the latch clear it is OK and
changes nothing; otherwise the first condition that fails refuses it. -/
def Obligations.EmergencyResetClearsTheLatch : Prop :=
  ∀ (tag : Byte) (s : State), Admits s →
    (∀ c, s.diu.latch = some c → s.asu.standstill = true → s.diu.emergInput = false →
      s.diu.demandEmergency = false → ∃ t, exec (.emergencyReset tag) s = .next t
        ∧ SameBrakes { s with
            diu := { s.diu with latch := none, dEff := 0 }
            ble := { s.ble with released := t.ble.released } } t
        ∧ replied 0x02 tag [1, 0] t
        ∧ raised .emergencyReset .absent (some c.code) none s t
        ∧ (computeWork t).diu.dEff = if s.mdc.mode = .running
            then min s.diu.dReq (max 1 (s.pst.active.blend.applyRate * s.nlc.period / 1000)) else 0)
    ∧ ∀ payload : List Byte,
      (s.diu.latch = none ∧ payload = [0, 0])
      ∨ (s.diu.latch.isSome = true ∧ s.asu.standstill = false ∧ payload = [11, 1])
      ∨ (s.diu.latch.isSome = true ∧ s.asu.standstill = true ∧ s.diu.emergInput = true
          ∧ payload = [9, 2])
      ∨ (s.diu.latch.isSome = true ∧ s.asu.standstill = true ∧ s.diu.emergInput = false
          ∧ s.diu.demandEmergency = true ∧ payload = [9, 3]) →
      ∃ t, exec (.emergencyReset tag) s = .next t ∧ SameMemory s t ∧ replied 0x02 tag payload t

/-- A rising edge of the emergency input sets a clear latch in every mode: D_eff 6000 at once, EMERGENCY_ON,
every dump closed, the dynamic brake to REST, and in RUNNING the outputs of the emergency blend, under the
park hold the raised targets. A set latch keeps its cause. A falling edge changes the level held and nothing
else. -/
def Obligations.EmergencyInputSetsTheLatch : Prop :=
  ∀ s : State, s.sys.phase = .live →
    exec .emergencyInputFall s
      = .next (grant { s with diu := { s.diu with emergInput := false } })
    ∧ (s.diu.latch.isSome = true → exec .emergencyInputRise s
      = .next (grant { s with diu := { s.diu with emergInput := true } }))
    ∧ (s.diu.latch = none → ∃ t, exec .emergencyInputRise s = .next t
        ∧ SameBrakes { s with
            diu := { s.diu with emergInput := true, latch := some .input, dEff := 6000 }
            ble := t.ble, dbs := t.dbs, wsc := t.wsc } t
        ∧ raised .emergencyOn .absent (some 1) (some s.diu.dEff) s t
        ∧ (∀ a, t.wsc.get a = if (s.wsc.get a).slide = .dump then { s.wsc.get a with
              slide := .relief, dumpOpen := false
              dumpRest := if (s.wsc.get a).dumpOpen then s.pst.active.slide.dumpRest
                else (s.wsc.get a).dumpRest }
            else s.wsc.get a)
        ∧ (t.dbs.state = if s.dbs.state = .exciting ∨ s.dbs.state = .available ∨ s.dbs.state = .cool
            then .rest else s.dbs.state)
        ∧ (s.mdc.mode = .running → t.ble = { s.ble with
            axles := s.ble.axles.map fun x => { x with
              command := 0, airShare := 0, target := s.pst.active.blend.emergencyPressure
              clamped := false }
            eTotal := 0, aTotal := 0, emergencyFlag := true })
        ∧ (s.mdc.mode = .parking ∨ s.mdc.mode = .parked ∨ s.mdc.mode = .unparking →
            t.ble.emergencyFlag = true ∧ ∀ a, (t.ble.axles.get a).target
              = max (max s.pst.active.blend.parkPressure s.diu.indep)
                  s.pst.active.blend.emergencyPressure))

/-- The silence expiry in RUNNING: SILENT_HOLD with D_req kept and HOST_SILENT; with Silent Hold 0 the
fallback follows at once. A silence time that a DEMAND has just restarted does not expire. The hold expiry in
RUNNING: SILENT_FALLBACK with D_req the Fallback Demand; with Silent Emergency on the fallback sets a clear
latch, which raises EMERGENCY_ON with cause SILENCE and does all that the latch does. In any other mode or silence state neither has an effect. That an
expiry is taken at its word, with its count raised to its limit, is the model's choice (log 2). -/
def Obligations.SilenceAndHoldExpire : Prop :=
  ∀ s : State, s.sys.phase = .live →
    let b := s.pst.active.blend
    let sets := b.silentEmergency && s.diu.latch.isNone
    let time := max s.diu.silenceTime (b.demandTimeout + 1)
    (s.mdc.mode ≠ .running ∨ s.diu.silence ≠ .normal ∨ s.diu.silenceTime = 0 →
      exec .demandTimeoutExpiry s = .next (grant s))
    ∧ (s.mdc.mode = .running → s.diu.silence = .normal → s.diu.silenceTime ≠ 0 →
      ∃ t, exec .demandTimeoutExpiry s = .next t
        ∧ raised .hostSilent .absent (some s.diu.dReq) none s t
        ∧ (b.silentHold ≠ 0 → SameBrakes { s with diu := { s.diu with
            silence := .silentHold, silenceTime := time, holdTime := 0 } } t)
        ∧ (b.silentHold = 0 → SameBrakes { s with
            diu := { s.diu with
              silence := .silentFallback, silenceTime := time, holdTime := 0
              dReq := b.fallbackDemand, latch := if sets then some .silence else s.diu.latch
              dEff := if sets then 6000 else s.diu.dEff }
            ble := t.ble, dbs := t.dbs, wsc := t.wsc } t
          ∧ (sets = true → logged .emergencyOn .absent (some 2) (some s.diu.dEff) t
            ∧ LatchActs s.diu.indep s t)
          ∧ (sets = false → t.ble = s.ble ∧ t.dbs = s.dbs ∧ t.wsc = s.wsc)))
    ∧ (s.mdc.mode ≠ .running ∨ s.diu.silence ≠ .silentHold →
      exec .silentHoldExpiry s = .next (grant s))
    ∧ (s.mdc.mode = .running → s.diu.silence = .silentHold → ∃ t, exec .silentHoldExpiry s = .next t
        ∧ t.diu = { s.diu with
            silence := .silentFallback, holdTime := max s.diu.holdTime b.silentHold
            dReq := b.fallbackDemand, latch := if sets then some .silence else s.diu.latch
            dEff := if sets then 6000 else s.diu.dEff }
        ∧ (sets = true → raised .emergencyOn .absent (some 2) (some s.diu.dEff) s t
            ∧ SameBrakes { s with diu := t.diu, ble := t.ble, dbs := t.dbs, wsc := t.wsc } t
            ∧ LatchActs s.diu.indep s t)
        ∧ (sets = false → SameMemory { s with diu := t.diu } t))

/-! ## The work at a COMPUTE (01 to 05) -/

/-- In RUNNING with the latch clear a COMPUTE takes one rate step of D_eff toward D_req, at least 1, without
passing it, and the air total of the same COMPUTE is what that D_eff leaves of the reported effort. At the first
COMPUTE after EMERGENCY_RESET has cleared the latch in RUNNING D_eff takes its step too, but the blend runs
from 0: no effort, every target the independent floor, the AIR_CMD emergency flag and the shortfall condition
clear (that both hold at that COMPUTE is read from R3 and R34, log 34; no COMPUTE after it is such a first
one). Outside RUNNING, and under the latch, a COMPUTE leaves D_eff as it stands. -/
def Obligations.ComputeTakesOneRateStep : Prop :=
  ∀ s : State,
    let b := s.pst.active.blend
    let d := (computeWork s).diu.dEff
    (s.mdc.mode = .running → s.diu.latch = none →
      (s.diu.dEff < s.diu.dReq →
        d = min s.diu.dReq (s.diu.dEff + max 1 (b.applyRate * s.nlc.period / 1000)))
      ∧ (s.diu.dReq < s.diu.dEff →
        d = max s.diu.dReq (s.diu.dEff - max 1 (b.releaseRate * s.nlc.period / 1000)))
      ∧ (s.diu.dReq = s.diu.dEff → d = s.diu.dEff)
      ∧ (s.ble.released = false → (computeWork s).ble.aTotal = d - s.dbs.eRep.sum)
      ∧ (s.ble.released = true → let t := (computeWork s).ble
        t.eTotal = 0 ∧ t.aTotal = 0 ∧ t.emergencyFlag = false ∧ t.shortfall = false
        ∧ ∀ a, t.axles.get a = { s.ble.axles.get a with
            command := 0, airShare := 0, target := s.diu.indep, clamped := false }))
    ∧ (s.mdc.mode ≠ .running ∨ s.diu.latch.isSome = true → d = s.diu.dEff)
    ∧ (computeWork s).ble.released = false
    ∧ ∀ tag : Byte, Admits s → s.diu.latch.isSome = true → s.asu.standstill = true →
      s.diu.emergInput = false → s.diu.demandEmergency = false →
      ∃ t, exec (.emergencyReset tag) s = .next t
        ∧ t.ble.released = (s.ble.released || (s.mdc.mode == .running))

/-- Water-filling divides any total over any capacities: no axle above its capacity, the sum the lesser of
total and capacities. There is a final share: an axle whose capacity lies at or below it gets its capacity, and
of the others each gets the share, the lowest-numbered one unit more for a remainder smaller than their
number. -/
def Obligations.WaterFillingDividesTheTotal : Prop :=
  ∀ (cap : PerAxle Nat) (total : Nat),
    (waterFill cap total).sum = min total cap.sum
    ∧ (∀ a, (waterFill cap total).get a ≤ cap.get a)
    ∧ ∃ share extra : Nat,
      let above := Axle.all.filter fun a => share < cap.get a
      (extra = 0 ∨ extra < above.length)
      ∧ ∀ a, (cap.get a ≤ share → (waterFill cap total).get a = cap.get a)
        ∧ (share < cap.get a → (waterFill cap total).get a = share
          + if (above.filter fun b => b.number < a.number).length < extra then 1 else 0)

/-- The electric part of a COMPUTE in RUNNING with the latch clear: the commands sum to the lesser of the demand
and the capacities, none above its axle's capacity. The demand is D_eff, but 0 at the first COMPUTE after the
latch was cleared in RUNNING (log 34). The air effective total is 0 with the air node LOST, with
VALVE_FAULT or with SUPPLY_LOW, and else what the targets are taken to give. The shortfall condition follows
the deficit, with SHORTFALL_ON, SHORTFALL_OFF and, once the sustain time is reached, SHORTFALL_SUSTAINED; it
goes on from where it stands, but at the first COMPUTE after the latch was cleared in RUNNING a condition still
set ends with SHORTFALL_OFF, its first value absent (log 45). -/
def Obligations.BlendMeetsTheDemand : Prop :=
  ∀ s : State, s.mdc.mode = .running → s.diu.latch = none →
    let t := computeWork s
    let b := s.pst.active.blend
    let air : Nat :=
      if s.nlc.health.air.state = .lost ∨ s.ble.airStatus.getLsbD 1 = true
        ∨ s.ble.airStatus.getLsbD 2 = true then 0
      else (t.ble.axles.map fun x => (x.target - b.airOffset) * b.airGain / 1024).sum
    let demand : Nat := if s.ble.released then 0 else t.diu.dEff
    let deficit : Int := (demand : Int) - ((t.dbs.eRep.sum + air : Nat) : Int)
    let time := min 600000 (s.ble.sustainTime + s.nlc.period)
    (t.ble.axles.map (·.command)).sum = min demand t.dbs.capacity.sum
    ∧ t.ble.eTotal = min demand t.dbs.capacity.sum
    ∧ (∀ a, (t.ble.axles.get a).command ≤ t.dbs.capacity.get a)
    ∧ (t.ble.shortfall = true ↔ (b.tolerance : Int) < deficit)
    ∧ (s.ble.shortfall = false → t.ble.shortfall = true →
        t.ble.sustainTime = 0 ∧ t.ble.sustainedRaised = false
        ∧ logged .shortfallOn .absent (some deficit) (some (demand : Int)) t)
    ∧ (s.ble.released = true → s.ble.shortfall = true →
        t.ble.shortfall = false ∧ t.ble.sustainTime = 0 ∧ t.ble.sustainedRaised = false
        ∧ logged .shortfallOff .absent none (some (s.ble.sustainTime / 10 : Nat)) t)
    ∧ (s.ble.released = false → s.ble.shortfall = true → t.ble.shortfall = false →
        t.ble.sustainTime = 0 ∧ t.ble.sustainedRaised = false
        ∧ logged .shortfallOff .absent (some deficit) (some (s.ble.sustainTime / 10 : Nat)) t)
    ∧ (s.ble.shortfall = true → t.ble.shortfall = true →
        t.ble.sustainTime = time
        ∧ t.ble.sustainedRaised = (s.ble.sustainedRaised || decide (b.sustain * 10 ≤ time))
        ∧ (s.ble.sustainedRaised = false → b.sustain * 10 ≤ time →
          logged .shortfallSustained .absent (some deficit) (some (demand : Int)) t))
    ∧ (s.ble.shortfall = false → t.ble.shortfall = false →
        t.ble.sustainTime = s.ble.sustainTime ∧ t.ble.sustainedRaised = s.ble.sustainedRaised)

/-- The air part of a COMPUTE in RUNNING with the latch clear: the equal split with the remainder to the
lowest axles, the pressure of each share with its clamp, and the independent floor, whatever the axle's
slide state. The premise bounds D_eff and I and keeps Air Gain above 0. -/
def Obligations.BlendSplitsAirAndSetsPressures : Prop :=
  ∀ s : State, BrakeInv s → s.mdc.mode = .running → s.diu.latch = none →
    let t := computeWork s
    let b := s.pst.active.blend
    (t.ble.axles.map (·.airShare)).sum = t.ble.aTotal
    ∧ t.ble.emergencyFlag = false
    ∧ ∀ a, let x := t.ble.axles.get a
      let p := b.airOffset + (x.airShare * 1024 + (b.airGain - 1)) / b.airGain
      x.airShare = t.ble.aTotal / 6 + (if a.number ≤ t.ble.aTotal % 6 then 1 else 0)
      ∧ x.airShare ≤ 1000
      ∧ (x.airShare = 0 → x.target = t.diu.indep ∧ x.clamped = false)
      ∧ (0 < x.airShare → b.ceiling < p → x.target = max b.ceiling t.diu.indep
          ∧ t.diu.indep ≤ b.ceiling ∧ x.clamped = true)
      ∧ (0 < x.airShare → p ≤ b.ceiling → x.target = max p t.diu.indep ∧ x.clamped = false
          ∧ b.airOffset + 1 ≤ p)

/-- A COMPUTE in RUNNING under the latch gives the emergency blend and no shortfall condition. A COMPUTE in a
park mode gives the park hold: no electric effort, and every target the park target, or under the latch or
roll hold the larger of it and Emergency Pressure. The MDC then works: in PARKING the parking test, which ends
in PARKED when every axle's measured pressure is within 10 kPa of its target; in PARKED the roll watch, whose
first axle at Roll Time raises ROLL_DETECTED; in UNPARKING the return to RUNNING in a frame of the Frame
Period. In every mode the mode that this work leaves is kept for the snapshot (log 37). -/
def Obligations.ComputeUnderLatchOrInPark : Prop :=
  ∀ s : State,
    let t := computeWork s
    (s.mdc.mode = .running → s.diu.latch.isSome = true →
      t.ble.eTotal = 0 ∧ t.ble.aTotal = 0 ∧ t.ble.emergencyFlag = true ∧ t.ble.shortfall = false
      ∧ (s.ble.shortfall = true →
          logged .shortfallOff .absent none (some (s.ble.sustainTime / 10 : Nat)) t)
      ∧ ∀ a, let x := t.ble.axles.get a
        x.command = 0 ∧ x.airShare = 0 ∧ x.clamped = false
        ∧ x.target = s.pst.active.blend.emergencyPressure)
    ∧ (s.mdc.mode = .parking ∨ s.mdc.mode = .parked ∨ s.mdc.mode = .unparking →
      let park := max s.pst.active.blend.parkPressure s.diu.indep
      let full := s.diu.latch.isSome || s.mdc.rollHold
        || (s.mdc.mode == .parked && t.mdc.rollHold)
      t.ble.eTotal = 0 ∧ t.ble.aTotal = 0 ∧ t.ble.emergencyFlag = full
      ∧ ∀ a, let x := t.ble.axles.get a
        x.command = 0 ∧ x.airShare = 0 ∧ x.clamped = false
        ∧ x.target = if full then max park s.pst.active.blend.emergencyPressure else park)
    ∧ (s.mdc.mode = .parking →
      let near := fun a : Axle => ∃ p, (s.ble.axles.get a).measured = some p
        ∧ p ≤ (t.ble.axles.get a).target + 10 ∧ (t.ble.axles.get a).target ≤ p + 10
      ((∀ a, near a) → t.mdc = { s.mdc with
          mode := .parked, workMode := .parked, choice := .park, rollTime := .fill 0
          parkNotWithin := 0 }
        ∧ logged .parked .absent (some (s.mdc.parkingTime : Int)) (some 0) t)
      ∧ ((∃ a, ¬ near a) → t.mdc = { s.mdc with
          workMode := .parking, parkNotWithin := t.mdc.parkNotWithin }
        ∧ ∃ l : List Axle, l.Nodup ∧ (∀ a, a ∈ l ↔ ¬ near a) ∧ t.mdc.parkNotWithin = l.length))
    ∧ (s.mdc.mode = .parked →
      let rolls := fun a : Axle => (s.nlc.health.axles.get a).state ≠ .lost
        ∧ (s.asu.axles.get a).valid = true
        ∧ s.pst.active.slide.rollSpeed ≤ (s.asu.axles.get a).speed
      let due := fun a : Axle =>
        rolls a ∧ s.pst.active.slide.rollTime * 10 ≤ t.mdc.rollTime.get a
      t.mdc = { s.mdc with
          workMode := .parked, rollTime := t.mdc.rollTime, rollHold := t.mdc.rollHold }
      ∧ (∀ a, (rolls a → t.mdc.rollTime.get a = min 50000 (s.mdc.rollTime.get a + s.nlc.period))
        ∧ (¬ rolls a → t.mdc.rollTime.get a = 0))
      ∧ (t.mdc.rollHold = true ↔ s.mdc.rollHold = true ∨ ∃ a, due a)
      ∧ ∀ a, s.mdc.rollHold = false → due a → (∀ b : Axle, b.number < a.number → ¬ due b) →
        logged .rollDetected (.axle a) (some ((s.asu.axles.get a).speed : Int))
          (some (t.asu.vRef : Int)) t)
    ∧ (s.mdc.mode = .unparking →
      (s.nlc.frameChoice = .frame →
        t.mdc = { s.mdc with mode := .running, workMode := .running, rollHold := false }
        ∧ t.diu = { s.diu with silenceTime := 0, holdTime := 0 } ∧ t.asu.acquire = true
        ∧ t.hlp.reportDivider = 0
        ∧ logged .unparked .absent (some (s.nlc.frameCounter : Int)) none t)
      ∧ (s.nlc.frameChoice = .park → t.mdc = { s.mdc with workMode := .unparking }))
    ∧ t.mdc.workMode = t.mdc.mode

/-- At every COMPUTE the capacity of an axle is 0 in RELIEF, DUMP, ISOLATED and without an available
dynamic brake, and else the least of envelope, ceiling and, in COOL, Continuous Limit; the grid heat takes
its step between 0 and its ceiling. In OFF an enabled brake whose excitation is allowed becomes EXCITING;
AVAILABLE and COOL follow the heat, with DB_COOL_ON and DB_COOL_OFF. -/
def Obligations.ComputeFormsCapacityAndHeat : Prop :=
  ∀ s : State,
    let t := computeWork s
    let p := s.pst.active.dbrake
    let excites := s.mdc.mode = .running ∧ s.diu.dbEnable = true ∧ s.diu.latch = none
      ∧ s.nlc.health.db.state ≠ .lost ∧ s.dbs.nodeStatus.getLsbD 0 = false
      ∧ s.dbs.nodeStatus.getLsbD 1 = false
    t.dbs.heat = min 16777215 (s.dbs.heat + s.dbs.eRep.sum * t.asu.vRef * s.nlc.period / 4194304
      - p.cooling * s.nlc.period / 100)
    ∧ (∀ a, let x := t.wsc.get a
      (x.slide = .relief ∨ x.slide = .dump ∨ x.slide = .isolated → t.dbs.capacity.get a = 0)
      ∧ (t.dbs.state ≠ .available → t.dbs.state ≠ .cool → t.dbs.capacity.get a = 0)
      ∧ (x.slide = .normal ∨ x.slide = .recover → t.dbs.state = .available →
          t.dbs.capacity.get a = min (p.envelope t.asu.vRef) x.ceiling)
      ∧ (x.slide = .normal ∨ x.slide = .recover → t.dbs.state = .cool →
          t.dbs.capacity.get a = min (min (p.envelope t.asu.vRef) p.continuous) x.ceiling))
    ∧ (s.dbs.state = .off → excites → t.dbs.state = .exciting ∧ t.dbs.exciteTime = 0)
    ∧ (s.dbs.state = .off → ¬ excites → t.dbs.state = .off)
    ∧ (s.dbs.state = .available → p.heatHigh ≤ t.dbs.heat → t.dbs.state = .cool
      ∧ logged .dbCoolOn .absent (some (t.dbs.heat : Int)) (some (t.asu.vRef : Int)) t)
    ∧ (s.dbs.state = .available → t.dbs.heat < p.heatHigh → t.dbs.state = .available)
    ∧ (s.dbs.state = .cool → t.dbs.heat < p.heatLow → t.dbs.state = .available
      ∧ logged .dbCoolOff .absent (some (t.dbs.heat : Int)) none t)
    ∧ (s.dbs.state = .cool → p.heatLow ≤ t.dbs.heat → t.dbs.state = .cool)
    ∧ (s.dbs.state = .exciting ∨ s.dbs.state = .lost ∨ s.dbs.state = .rest →
      t.dbs.state = s.dbs.state)

/-- The envelope over strictly rising speeds: the first effort below the first breakpoint, the last above the
last, and between two neighbours the truncated interpolation, which gives each breakpoint its own effort. -/
def Obligations.EnvelopeInterpolates : Prop :=
  ∀ l : List (Nat × Nat), l.Pairwise (fun p q => p.1 < q.1) →
    (∀ p, l.head? = some p → ∀ v, v ≤ p.1 → envelopeAt l v = p.2)
    ∧ (∀ p, l.getLast? = some p → ∀ v, p.1 ≤ v → envelopeAt l v = p.2)
    ∧ (∀ p ∈ l, envelopeAt l p.1 = p.2)
    ∧ ∀ i p q v, l[i]? = some p → l[i + 1]? = some q → p.1 ≤ v → v < q.1 →
        (envelopeAt l v : Int) = p.2 + Int.tdiv (((v : Int) - p.1) * ((q.2 : Int) - p.2))
          ((q.1 : Int) - p.1)
        ∧ min p.2 q.2 ≤ envelopeAt l v ∧ envelopeAt l v ≤ max p.2 q.2

/-- The candidate is the highest speed of the fresh, valid, unisolated axles. A COMPUTE moves the reference
speed to it within one fall step and one rise step, or sets it outright when acquisition is pending in
RUNNING; without a candidate the flag REF_DEGRADED stands, and its onset raises the event. The standstill
count and flag then follow the reference speed. -/
def Obligations.ReferenceSpeedFollowsTheCandidate : Prop :=
  ∀ s : State,
    let t := computeWork s
    let ok := fun a : Axle => (s.asu.axles.get a).fresh = true ∧ (s.asu.axles.get a).valid = true
      ∧ (s.wsc.get a).slide ≠ .isolated
    let w := s.pst.active.wheel
    let fall := max 1 (w.fallLimit * s.nlc.period / 1000)
    let rise := max 1 (w.riseLimit * s.nlc.period / 1000)
    let acquires := s.asu.acquire = true ∧ s.mdc.mode = .running
    let count := min 100000 (s.asu.standstillCount + s.nlc.period)
    ((¬ ∃ a, ok a) → t.asu.degraded = true
      ∧ (s.asu.degraded = false → isLatched .refDegraded t)
      ∧ t.asu.vRef = if s.asu.acquire && s.mdc.mode == .running then 0 else s.asu.vRef - fall)
    ∧ (∀ a, ok a → (∀ b, ok b → (s.asu.axles.get b).speed ≤ (s.asu.axles.get a).speed) →
        let c := (s.asu.axles.get a).speed
        t.asu.degraded = false
        ∧ (acquires → t.asu.vRef = c)
        ∧ (¬ acquires → t.asu.vRef = max (s.asu.vRef - fall) (min c (s.asu.vRef + rise))))
    ∧ (0 < t.asu.vRef → t.asu.standstillCount = 0 ∧ t.asu.standstill = false)
    ∧ (t.asu.vRef = 0 → 0 < s.asu.vRef →
      t.asu.standstillCount = 0 ∧ t.asu.standstill = s.asu.standstill)
    ∧ (t.asu.vRef = 0 → s.asu.vRef = 0 → t.asu.standstillCount = count
      ∧ (t.asu.standstill = true ↔ s.asu.standstill = true ∨ w.standstillTime * 10 ≤ count))

/-- The WSC's work for one axle at a COMPUTE; the other axles stand. A fresh, valid axle moves between NORMAL,
RELIEF, DUMP and RECOVER by its slide and recovered conditions, with its ceiling cut at an onset and a relapse
and rising in NORMAL and RECOVER; its episode time and lock time raise SLIDE_SUSTAINED and AXLE_LOCKED. An
axle that is valid but not fresh stands. An axle whose sensor is invalid counts, and is isolated with cause
SENSOR at Hold Frames. An axle isolated with no cause left is restored to NORMAL with its ceiling at 800. -/
def Obligations.SlideOnsetCutsTheCeiling : Prop :=
  ∀ (a : Axle) (s : State),
    let p := s.pst.active.slide
    let x := s.asu.axles.get a
    let w := s.wsc.get a
    let creep := s.asu.vRef - x.speed
    let slides := p.creepBase + s.asu.vRef * p.creepRatio / 256 < creep
      ∨ ((max 1 (p.decelThreshold * s.nlc.period / 1000) : Nat) : Int) < x.decel
    let raisedCeiling := min 800 (w.ceiling + p.adhesionStep)
    let cut := (s.ble.axles.get a).command * p.adhesionCut / 16
    let episode := min 600000 (w.episodeTime + s.nlc.period)
    let locked := min 100000 (w.lockTime + s.nlc.period)
    let invalid := min 255 (w.sensorInvalid + 1)
    let hold := s.pst.active.link.holdFrames
    let t := wscAxle a s
    let y := t.wsc.get a
    (∀ b, b ≠ a → t.wsc.get b = s.wsc.get b)
    ∧ (x.valid = true → x.fresh = true →
      (w.slide = .normal → slides → y.slide = .relief ∧ y.ceiling = cut ∧ y.reliefFrames = 0
        ∧ y.episodeTime = 0 ∧ y.sustainedRaised = false
        ∧ logged .slideOnset (.axle a) (some creep) (some x.decel) t)
      ∧ (w.slide = .normal → ¬ slides → y.slide = .normal ∧ y.ceiling = raisedCeiling)
      ∧ (w.slide = .relief → creep ≤ p.recoveryCreep → y.slide = .recover ∧ y.recoverFrames = 0
        ∧ y.reliefFrames = w.reliefFrames ∧ y.ceiling = raisedCeiling)
      ∧ (w.slide = .relief → p.recoveryCreep < creep → slides →
        y.reliefFrames = min 255 (w.reliefFrames + 1) ∧ y.ceiling = w.ceiling)
      ∧ (w.slide = .relief → p.recoveryCreep < creep → ¬ slides → y.slide = .relief
        ∧ y.reliefFrames = w.reliefFrames ∧ y.ceiling = w.ceiling)
      ∧ (w.slide = .dump → creep ≤ p.recoveryCreep → y.slide = .recover ∧ y.recoverFrames = 0
        ∧ y.dumpOpen = false ∧ y.dumpRest = (if w.dumpOpen then p.dumpRest else w.dumpRest)
        ∧ y.dumpOpenTime = w.dumpOpenTime ∧ y.ceiling = raisedCeiling)
      ∧ (w.slide = .dump → p.recoveryCreep < creep → y.slide = .dump ∧ y.dumpOpen = w.dumpOpen
        ∧ y.reliefFrames = w.reliefFrames ∧ y.ceiling = w.ceiling)
      ∧ (w.slide = .recover → slides → y.slide = .relief ∧ y.ceiling = cut ∧ y.reliefFrames = 0)
      ∧ (w.slide = .recover → ¬ slides →
        let n := min 255 (w.recoverFrames + 1)
        y.ceiling = raisedCeiling
        ∧ (n < p.recoverFrames → y.slide = .recover ∧ y.recoverFrames = n)
        ∧ (p.recoverFrames ≤ n → y.slide = .normal ∧ y.reliefFrames = 0 ∧ y.recoverFrames = 0
          ∧ logged .slideEnd (.axle a) (some (episode / 10 : Nat)) (some (w.ceiling : Int)) t))
      ∧ (w.slide = .relief ∨ w.slide = .dump ∨ w.slide = .recover → y.episodeTime = episode
        ∧ y.sustainedRaised = (w.sustainedRaised || decide (p.sustainedTime * 10 ≤ episode))
        ∧ (w.sustainedRaised = false → p.sustainedTime * 10 ≤ episode →
          logged .slideSustained (.axle a) (some (episode / 10 : Nat)) (some (w.slide.code : Int)) t))
      ∧ (w.slide ≠ .isolated →
        (0 < x.speed → y.lockTime = 0 ∧ y.lockRaised = false)
        ∧ (x.speed = 0 → s.asu.vRef < p.lockSpeed → y.lockTime = 0 ∧ y.lockRaised = w.lockRaised)
        ∧ (x.speed = 0 → p.lockSpeed ≤ s.asu.vRef → y.lockTime = locked
          ∧ y.lockRaised = (w.lockRaised || decide (p.lockTime * 10 ≤ locked))
          ∧ (w.lockRaised = false → p.lockTime * 10 ≤ locked →
            logged .axleLocked (.axle a) (some (s.asu.vRef : Int)) (some (w.slide.code : Int)) t))))
    ∧ (x.valid = true → y.sensorInvalid = 0 ∧ y.sensorCause = false)
    ∧ (x.valid = true → x.fresh = false → w.slide ≠ .isolated →
      y = { w with sensorInvalid := 0, sensorCause := false })
    ∧ (x.valid = true → w.slide = .isolated → w.nodeCause = false → w.cutout = false →
        SameBrakes { s with wsc := s.wsc.set a { w with
          slide := .normal, ceiling := 800, sensorCause := false, sensorInvalid := 0 } } t
        ∧ raised .axleRestored (.axle a) none none s t)
    ∧ (x.valid = false → w.slide ≠ .isolated → (invalid < hold ∨ w.sensorCause = true) →
      y = { w with sensorInvalid := invalid })
    ∧ (x.valid = false → hold ≤ invalid → w.sensorCause = false → w.slide ≠ .isolated →
      SameBrakes { s with
        wsc := s.wsc.set a { w with
          slide := .isolated, sensorCause := true, sensorInvalid := invalid, dumpOpen := false
          dumpRest := if w.dumpOpen then p.dumpRest else w.dumpRest
          reliefFrames := 0, recoverFrames := 0, episodeTime := 0, lockTime := 0
          sustainedRaised := false, lockRaised := false }
        ble := { s.ble with axles := s.ble.axles.set a { s.ble.axles.get a with command := 0 } }
        dbs := { s.dbs with capacity := s.dbs.capacity.set a 0 } } t
      ∧ raised .axleIsolated (.axle a) (some 1) (some (w.slide.code : Int)) s t)
    ∧ (x.valid = false → hold ≤ invalid → w.slide = .isolated →
      y.slide = .isolated ∧ y.sensorCause = true)

/-- A closed dump opens at a COMPUTE exactly when its axle slides on in RELIEF, unrecovered, with its relief
frames done, its rest run out, the part in RUNNING, its node HEALTHY without valve fault and the latch
clear. -/
def Obligations.DumpOpensOnlyWhenAllowed : Prop :=
  ∀ (a : Axle) (s : State), (s.wsc.get a).dumpOpen = false →
    let p := s.pst.active.slide
    let x := s.asu.axles.get a
    let w := s.wsc.get a
    let creep := s.asu.vRef - x.speed
    let slides := p.creepBase + s.asu.vRef * p.creepRatio / 256 < creep
      ∨ ((max 1 (p.decelThreshold * s.nlc.period / 1000) : Nat) : Int) < x.decel
    let t := wscAxle a s
    ((t.wsc.get a).dumpOpen = true ↔
      w.slide = .relief ∧ x.fresh = true ∧ x.valid = true ∧ p.recoveryCreep < creep ∧ slides
      ∧ p.reliefFrames ≤ min 255 (w.reliefFrames + 1) ∧ w.dumpRest = 0 ∧ s.mdc.mode = .running
      ∧ (s.nlc.health.axles.get a).state = .healthy ∧ w.valveFault = false ∧ s.diu.latch = none)
    ∧ ((t.wsc.get a).dumpOpen = true → (t.wsc.get a).slide = .dump ∧ (t.wsc.get a).dumpOpenTime = 0
        ∧ logged .dumpOpen (.axle a) (some creep) (some (min 255 (w.reliefFrames + 1))) t)

/-! ## Dynamic brake and wheel slide between COMPUTE events (03, 05) -/

/-- The excite time's expiry takes EXCITING to LOST with DB_EXCITE_FAIL; that the reported efforts become 0 at
it is the model's reading (log 17). The rest time's expiry ends REST in EXCITING, if a DEMAND during the rest
asked for it and excitation is allowed, and else in OFF with the efforts dropped; that the first holds before the
first COMPUTE after UNPARKED too is the model's choice (log 63). That an expiry is taken at
its word, with its count raised to its limit, and has no effect in another state, is the model's choice
(log 2). -/
def Obligations.ExciteAndRestTimesExpire : Prop :=
  ∀ s : State, s.sys.phase = .live →
    let p := s.pst.active.dbrake
    let allowed := s.mdc.mode = .running ∧ s.diu.latch = none ∧ s.nlc.health.db.state ≠ .lost
      ∧ s.dbs.nodeStatus.getLsbD 0 = false ∧ s.dbs.nodeStatus.getLsbD 1 = false
    (s.dbs.state ≠ .exciting → exec .exciteTimeExpiry s = .next (grant s))
    ∧ (s.dbs.state = .exciting → ∃ t, exec .exciteTimeExpiry s = .next t
        ∧ SameBrakes { s with dbs := { s.dbs with
            state := .lost, exciteTime := max s.dbs.exciteTime p.exciteTime, cleanFrames := 0
            eRep := .fill 0 } } t
        ∧ raised .dbExciteFail (.node .db) (some p.exciteTime) none s t)
    ∧ (s.dbs.state ≠ .rest → exec .restTimeExpiry s = .next (grant s))
    ∧ (s.dbs.state = .rest → s.dbs.pendingEnable = true → allowed →
        exec .restTimeExpiry s = .next (grant { s with dbs := { s.dbs with
          state := .exciting, restTime := max s.dbs.restTime p.restTime, exciteTime := 0
          pendingEnable := false } }))
    ∧ (s.dbs.state = .rest → (s.dbs.pendingEnable = false ∨ ¬ allowed) →
        exec .restTimeExpiry s = .next (grant { s with dbs := { s.dbs with
          state := .off, restTime := max s.dbs.restTime p.restTime, pendingEnable := false
          eRep := .fill 0 } }))

/-- AXLE_CUTOUT on isolates an axle at once, with AXLE_ISOLATED, its dump closed, its counts and its electric
command and capacity 0; for an isolated axle it adds the cause; repeated it changes nothing. Off takes the
cause away and leaves the axle's state. The request is refused in UNCONFIGURED, whatever its fields (log 12),
and for an axle or an on/off field that stands for nothing. -/
def Obligations.CutoutIsolatesTheAxle : Prop :=
  ∀ (tag axle onOff : Byte) (s : State), Admits s →
    (s.mdc.mode = .unconfigured → ∃ t, exec (.axleCutout tag axle onOff) s = .next t
      ∧ SameMemory s t ∧ replied 0x0E tag [9, 0, 0] t)
    ∧ (s.mdc.mode ≠ .unconfigured → (axle.toNat = 0 ∨ 6 < axle.toNat ∨ 1 < onOff.toNat) →
        ∃ t, exec (.axleCutout tag axle onOff) s = .next t ∧ SameMemory s t
          ∧ replied 0x0E tag [8, 0, 0] t)
    ∧ ∀ a : Axle, s.mdc.mode ≠ .unconfigured → axle.toNat = a.number →
        let w := s.wsc.get a
        let causes := bit w.nodeCause + 2 * bit w.sensorCause
        (onOff = 0 → ∃ t, exec (.axleCutout tag axle onOff) s = .next t
          ∧ SameMemory { s with wsc := s.wsc.set a { w with cutout := false } } t
          ∧ replied 0x0E tag [0, BitVec.ofNat 8 w.slide.code, BitVec.ofNat 8 causes] t)
        ∧ (onOff = 1 → w.cutout = true → ∃ t, exec (.axleCutout tag axle onOff) s = .next t
          ∧ SameMemory s t
          ∧ replied 0x0E tag [0, BitVec.ofNat 8 w.slide.code, BitVec.ofNat 8 (causes + 4)] t)
        ∧ (onOff = 1 → w.cutout = false → w.slide = .isolated →
          ∃ t, exec (.axleCutout tag axle onOff) s = .next t
            ∧ SameMemory { s with wsc := s.wsc.set a { w with cutout := true } } t
            ∧ replied 0x0E tag [0, 4, BitVec.ofNat 8 (causes + 4)] t)
        ∧ (onOff = 1 → w.cutout = false → w.slide ≠ .isolated →
          ∃ t, exec (.axleCutout tag axle onOff) s = .next t
            ∧ SameBrakes { s with
                wsc := s.wsc.set a { w with
                  slide := .isolated, cutout := true, dumpOpen := false
                  dumpRest := if w.dumpOpen then s.pst.active.slide.dumpRest else w.dumpRest
                  reliefFrames := 0, recoverFrames := 0, episodeTime := 0, lockTime := 0
                  sustainedRaised := false, lockRaised := false }
                ble := { s.ble with
                  axles := s.ble.axles.set a { s.ble.axles.get a with command := 0 } }
                dbs := { s.dbs with capacity := s.dbs.capacity.set a 0 } } t
            ∧ replied 0x0E tag [0, 4, BitVec.ofNat 8 (causes + 4)] t
            ∧ raised .axleIsolated (.axle a) (some 2) (some w.slide.code) s t)

/-- The dump limit takes an axle in DUMP to RELIEF with its dump closed, its rest running and DUMP_LIMIT. The
rest's end opens nothing. That each expiry is taken at its word, with the dump-open time raised to its limit
and the dump rest set to 0, and that a limit has no effect on a closed dump, is the model's choice (log 2). -/
def Obligations.DumpLimitClosesTheDump : Prop :=
  ∀ (a : Axle) (s : State), s.sys.phase = .live →
    let w := s.wsc.get a
    let p := s.pst.active.slide
    (w.dumpOpen = false → exec (.dumpLimitExpiry a) s = .next (grant s))
    ∧ (w.dumpOpen = true → w.slide = .dump → ∃ t, exec (.dumpLimitExpiry a) s = .next t
        ∧ SameBrakes { s with
            wsc := s.wsc.set a { w with
              slide := .relief, dumpOpen := false, dumpRest := p.dumpRest
              dumpOpenTime := max w.dumpOpenTime p.dumpLimit }
            ble := { s.ble with
              axles := s.ble.axles.set a { s.ble.axles.get a with command := 0 } }
            dbs := { s.dbs with capacity := s.dbs.capacity.set a 0 } } t
        ∧ raised .dumpLimit (.axle a) (some (max w.dumpOpenTime p.dumpLimit : Nat))
            (some p.dumpLimit) s t)
    ∧ exec (.dumpRestExpiry a) s
        = .next (grant { s with wsc := s.wsc.set a { w with dumpRest := 0 } })

/-! ## Node link (06) -/

/-- A start that falls due between frames, by the timer or by a sync edge, starts a frame: the counter goes
up by one, a pending switch and the pending sets take effect, the period in force is fixed for the frame, the
next due time follows from it, and freshness and measured pressures are gone. What the blocks do at the
activation of one pending set is shown before a line slot (logs 16, 17, 46). The first slot starts: a line
slot's first attempt, or the COMPUTE with the blocks' work. A start that falls due within a frame is held, or
merged with the one held. One that the link state or the source does not ask for has no effect (log 2). -/
def Obligations.DueStartBeginsAFrame : Prop :=
  ∀ s : State, s.sys.phase = .live →
    let src := s.pst.active.link.startSource
    let held := some (match s.nlc.startPending with | some n => min 255 (n + 1) | none => 1)
    (∀ (c : Instr) (due : Nat), s.nlc.link = .waiting →
      (c = .frameTimerExpiry ∧ s.nlc.awaitFirstEdge = false ∧ src ≠ .sync ∧ due = s.nlc.nextDue)
        ∨ (c = .syncRisingEdge ∧ due = s.sys.clock
            ∧ (src = .sync ∨ (src = .syncThenTimer ∧ s.nlc.awaitFirstEdge = true))) →
      ∃ t, exec c s = .next t
        ∧ t.nlc.frameCounter = (s.nlc.frameCounter + 1) % 4294967296
        ∧ t.nlc.inUse = s.nlc.selected ∧ t.nlc.selected = s.nlc.selected
        ∧ t.pst.staging = s.pst.staging ∧ t.pst.pendingSets = []
        ∧ t.pst.active = s.pst.pendingSets.foldl (fun p x => copySet x s.pst.staging p) s.pst.active
        ∧ t.nlc.frameDue = due ∧ t.nlc.nextDue = due + t.nlc.period * 100
        ∧ t.nlc.period = (match s.mdc.choice with
            | .frame => t.pst.active.link.framePeriod.getD 0
            | .park => t.pst.active.link.parkPeriod)
        ∧ (∀ a, (t.asu.axles.get a).fresh = false)
        ∧ (∀ a, (t.ble.axles.get a).measured = none)
        ∧ (∀ d, (s.nlc.area s.nlc.selected).slots[0]? = some d → d.kind = .compute → d.node = none →
          ∃ u doneAt, t = grant (computeWork u)
            ∧ u.nlc.progress = .compute 0 s.sys.clock u.mdc.mode doneAt
            ∧ s.sys.clock ≤ doneAt ∧ doneAt ≤ s.sys.clock + 200)
        ∧ ∀ d node, (s.nlc.area s.nlc.selected).slots[0]? = some d → d.node = some node →
          s.mdc.mode ≠ .parked →
          let seq := s.nlc.seq.get node
          let request := nodeRecord node.address d.kind.code seq (requestPayload d.kind node t)
          t.nlc.progress = .attempt 0 s.sys.clock ⟨1, d.line, seq, request,
            t.pst.active.link.responseTimeout, .sending (s.sys.clock + 5 * request.length)⟩
          ∧ ∀ x, s.pst.pendingSets = [x] → Activated x s t)
    ∧ (s.nlc.link = .inFrame → s.nlc.awaitFirstEdge = false → src ≠ .sync →
      exec .frameTimerExpiry s = .next (grant { s with nlc := { s.nlc with
        startPending := held, pendingDue := s.nlc.nextDue
        nextDue := s.nlc.nextDue + s.nlc.period * 100 } }))
    ∧ (s.nlc.link = .inFrame → src = .sync →
        exec .syncRisingEdge s = .next (grant { s with nlc := { s.nlc with
          startPending := held, pendingDue := s.sys.clock } }))
    ∧ (s.nlc.link = .idle ∨ s.nlc.awaitFirstEdge = true ∨ src = .sync →
        exec .frameTimerExpiry s = .next (grant s))
    ∧ (s.nlc.link = .idle ∨ src = .timer
        ∨ (src = .syncThenTimer ∧ s.nlc.awaitFirstEdge = false) →
        exec .syncRisingEdge s = .next (grant s))

/-- A request that has been sent starts the Response Timeout; a reply that begins in time on the attempt's
line ends the wait for it; the end of an interval starts the next slot that runs: a line slot's first attempt,
or the COMPUTE with the blocks' work, past the slots that PARKED passes over with NOT_RUN. A request carries
what its owners hold: an axle's dump, the six targets with the emergency flag, the excite flag with the six
commands. With no attempt and no interval running the commands have no effect (log 2). -/
def Obligations.AttemptAndIntervalProgress : Prop :=
  ∀ s : State, s.sys.phase = .live →
    let slots := (s.nlc.area s.nlc.inUse).slots
    (∀ slot start a sentAt, s.nlc.progress = .attempt slot start a → a.phase = .sending sentAt →
      exec .nodeRequestSent s = .next (grant { s with nlc := { s.nlc with
        progress := .attempt slot start { a with phase := .awaiting (s.sys.clock + a.timeout) } } }))
    ∧ (∀ slot start a deadline line, s.nlc.progress = .attempt slot start a →
        a.phase = .awaiting deadline → a.line = line →
        exec (.nodeReplyStart line) s = .next (grant { s with nlc := { s.nlc with
          progress := .attempt slot start { a with phase := .receiving deadline } } }))
    ∧ (∀ slot startAt d node, s.nlc.progress = .between slot startAt → s.mdc.mode ≠ .parked →
        slots[slot]? = some d → d.node = some node →
        ∃ t, exec .slotIntervalExpiry s = .next t
          ∧ SameMemory { s with nlc := { s.nlc with
              progress := .attempt slot s.sys.clock (attemptNow 1 d.line d.kind node s)
              seq := s.nlc.seq.set node ((s.nlc.seq.get node + 1) % 16) } } t)
    ∧ (∀ slot startAt k d, s.nlc.progress = .between slot startAt → slot ≤ k →
        (∀ j e, slot ≤ j → j < k → slots[j]? = some e →
          s.mdc.mode = .parked ∧ e.parkActive = false ∧ e.kind ≠ .compute) →
        slots[k]? = some d → d.kind = .compute → d.node = none →
        ∃ records doneAt, exec .slotIntervalExpiry s = .next (grant (computeWork
            { s with nlc := { s.nlc with
              progress := .compute k s.sys.clock s.mdc.mode doneAt, records := records } }))
          ∧ s.sys.clock ≤ doneAt ∧ doneAt ≤ s.sys.clock + 200
          ∧ ∀ j : Nat, records[j]? = (s.nlc.records[j]?).map fun r =>
              if slot ≤ j ∧ j < k then { r with outcome := .notRun } else r)
    ∧ ((∀ slot start a, s.nlc.progress ≠ .attempt slot start a) →
        exec .nodeRequestSent s = .next (grant s)
        ∧ (∀ line, exec (.nodeReplyStart line) s = .next (grant s))
        ∧ exec .nodeReplyGapExpiry s = .next (grant s)
        ∧ exec .responseTimeoutExpiry s = .next (grant s) ∧ exec .echoMismatch s = .next (grant s))
    ∧ ((∀ slot startAt, s.nlc.progress ≠ .between slot startAt) →
        exec .slotIntervalExpiry s = .next (grant s))
    ∧ (∀ a, requestPayload .axleCmd (.axle a) s = [if (s.wsc.get a).dumpOpen then 1 else 0])
    ∧ requestPayload .airCmd .air s
      = (Axle.all.flatMap fun a => be 2 (s.ble.axles.get a).target)
        ++ [if s.ble.emergencyFlag then 1 else 0]
    ∧ requestPayload .dbCmd .db s
      = [if s.dbs.state = .exciting ∨ s.dbs.state = .available ∨ s.dbs.state = .cool then 1 else 0]
        ++ (Axle.all.flatMap fun a => be 2 (s.ble.axles.get a).command)
    ∧ ∀ node, requestPayload .axlePoll node s = [] ∧ requestPayload .airPoll node s = []
      ∧ requestPayload .dbPoll node s = []

/-- With Retry Enable on, an attempt that fails is followed by another where the slot's policy gives one, on
the line the policy gives, with the node's next sequence number and its request built anew: after a Response
Timeout, after a reply that breaks off, and after an echo mismatch, which raises LOOP_FAIL. -/
def Obligations.FailedAttemptIsRetried : Prop :=
  ∀ (slot start : Nat) (a : Attempt) (d : SlotDesc) (node : Node) (line : Line) (s : State),
    s.sys.phase = .live → s.nlc.progress = .attempt slot start a →
    (s.nlc.area s.nlc.inUse).slots[slot]? = some d → d.node = some node →
    s.pst.active.link.retryEnable = true →
    ((a.number = 1 ∧ d.policy = .same ∧ line = d.line)
      ∨ (a.number = 1 ∧ d.policy = .alternate ∧ line ≠ d.line)
      ∨ (a.number = 1 ∧ d.policy = .sameThenAlternate ∧ line = d.line)
      ∨ (a.number = 2 ∧ d.policy = .sameThenAlternate ∧ line ≠ d.line)) →
    let u := { s with nlc := { s.nlc with
      progress := .attempt slot start (attemptNow (a.number + 1) line d.kind node s)
      seq := s.nlc.seq.set node ((s.nlc.seq.get node + 1) % 16) } }
    ((∃ x, a.phase = .awaiting x) → exec .responseTimeoutExpiry s = .next (grant u))
    ∧ ((∃ x, a.phase = .receiving x) → exec .nodeReplyGapExpiry s = .next (grant u))
    ∧ ((∃ x, a.phase = .sending x) → ∃ t, exec .echoMismatch s = .next t ∧ SameBrakes u t
        ∧ raised .loopFail (.schedSlot slot) (some a.line.code) (some node.address) s t)

/-- An attempt that fails with none to follow fails its slot: outcome FAILED, the cause, the failed count one
higher. Outside PARKED and without stop-on-error the next slot then waits for the failed slot's interval, or,
where that has passed, starts at once: a line slot's first attempt, or the COMPUTE with the blocks' work. -/
def Obligations.LastFailedAttemptFailsTheSlot : Prop :=
  ∀ (slot start : Nat) (a : Attempt) (d e : SlotDesc) (node : Node) (r : SlotRecord) (s : State),
    s.sys.phase = .live → s.nlc.progress = .attempt slot start a →
    (s.nlc.area s.nlc.inUse).slots[slot]? = some d → d.node = some node →
    (s.nlc.area s.nlc.inUse).slots[slot + 1]? = some e → s.nlc.records[slot]? = some r →
    d.stopOnError = false → s.mdc.mode ≠ .parked →
    (s.pst.active.link.retryEnable = false ∨ d.policy = .none ∨ 3 ≤ a.number
      ∨ (a.number = 2 ∧ d.policy ≠ .sameThenAlternate)) →
    ∀ (c : Instr) (cause : FailCause),
      (c = .responseTimeoutExpiry ∧ cause = .noReply ∧ ∃ x, a.phase = .awaiting x)
      ∨ (c = .nodeReplyGapExpiry ∧ cause = .messageError ∧ ∃ x, a.phase = .receiving x)
      ∨ (c = .echoMismatch ∧ cause = .echo ∧ ∃ x, a.phase = .sending x) →
      ∃ t, exec c s = .next t
        ∧ t.nlc.records[slot]? = some { r with
            outcome := .failed, lastCause := some cause
            failedCount := min 65535 (r.failedCount + 1) }
        ∧ (∀ j, j ≠ slot → t.nlc.records[j]? = s.nlc.records[j]?)
        ∧ t.nlc.health = s.nlc.health
        ∧ (s.sys.clock < start + d.interval →
          t.nlc.progress = .between (slot + 1) (start + d.interval) ∧ t.nlc.seq = s.nlc.seq
          ∧ SameBrakes { s with nlc := t.nlc } t)
        ∧ (start + d.interval ≤ s.sys.clock → ∀ n, e.node = some n →
          t.nlc.progress = .attempt (slot + 1) s.sys.clock (attemptNow 1 e.line e.kind n s)
          ∧ t.nlc.seq = s.nlc.seq.set n ((s.nlc.seq.get n + 1) % 16)
          ∧ SameBrakes { s with nlc := t.nlc } t)
        ∧ (start + d.interval ≤ s.sys.clock → e.node = none →
          ∃ u doneAt, t = grant (computeWork u) ∧ SameBrakes { s with nlc := u.nlc } u
            ∧ u.nlc.progress = .compute (slot + 1) s.sys.clock s.mdc.mode doneAt
            ∧ s.sys.clock ≤ doneAt ∧ doneAt ≤ s.sys.clock + 200)

/-- A reply that the attempt's slot takes, in whatever phase of the attempt it comes (log 21), reaches its
blocks whatever its status word: the axle's speed from its interval and its sensor and valve flags, the air
node's status and pressures, the dynamic brake node's status, ready flag and efforts. What holds until the
next slot starts is shown where the slot's interval has not passed and a later slot stands, outside PARKED and
without stop-on-error: freshness, measured pressures, the dynamic brake's state and efforts, a dump closed by
VALVE_FAULT, and the status check with STATUS_SET. That a fault flag comes before a clear ready flag of the
same record is the model's choice (log 56). -/
def Obligations.TakenReplyReachesItsBlocks : Prop :=
  ∀ (slot start : Nat) (a : Attempt) (d : SlotDesc) (node : Node) (bytes payload : List Byte)
    (s : State),
    s.sys.phase = .live → s.nlc.link ≠ .idle → s.nlc.progress = .attempt slot start a →
    (s.nlc.area s.nlc.inUse).slots[slot]? = some d → d.node = some node →
    parseNode bytes = some ⟨node.address, (expectedReply d.kind).1, a.seq, payload⟩ →
    payload.length = (expectedReply d.kind).2 →
    let status : Byte := payload.getLastD 0
    let interval := ofBe (payload.take 2)
    let value := fun x : Axle => ofBe ((payload.drop (2 * (x.number - 1))).take 2)
    let stays := s.sys.clock < start + d.interval
      ∧ (∃ e, (s.nlc.area s.nlc.inUse).slots[slot + 1]? = some e)
      ∧ s.mdc.mode ≠ .parked ∧ d.stopOnError = false
    ∃ t, exec (.nodeRecordReceived a.line bytes) s = .next t
      ∧ (∀ x, d.kind = .axlePoll → node = .axle x →
          let before := s.asu.axles.get x
          let after := t.asu.axles.get x
          after.interval = interval ∧ (t.wsc.get x).valveFault = status.getLsbD 1
          ∧ (stays → after.fresh = !status.getLsbD 0)
          ∧ (status.getLsbD 0 = true → after.valid = false ∧ after.speed = before.speed
              ∧ after.previous = before.previous ∧ after.decel = before.decel)
          ∧ (status.getLsbD 0 = false → after.valid = true ∧ after.previous = before.speed
              ∧ (interval = 0 → after.speed = 0)
              ∧ (∀ c p, interval ≠ 0 → s.pst.active.wheel.circumference.get x = some c →
                  s.pst.active.wheel.pulses = some p →
                  after.speed = min 16000 (360000 * c / (p * interval)))
              ∧ after.decel = if before.continuity || before.fresh
                  then (before.speed : Int) - after.speed else 0))
      ∧ (∀ x, d.kind = .axleCmd → node = .axle x →
          (t.wsc.get x).valveFault = status.getLsbD 1
          ∧ (t.asu.axles.get x).valid = ((s.asu.axles.get x).valid && !status.getLsbD 0)
          ∧ (t.asu.axles.get x).speed = (s.asu.axles.get x).speed)
      ∧ (∀ x, d.kind = .axlePoll ∨ d.kind = .axleCmd → node = .axle x → stays →
          status.getLsbD 1 = true → (s.wsc.get x).slide = .dump →
          t.wsc.get x = { s.wsc.get x with
              slide := .relief, dumpOpen := false, valveFault := true
              dumpRest := if (s.wsc.get x).dumpOpen then s.pst.active.slide.dumpRest
                else (s.wsc.get x).dumpRest }
          ∧ (t.ble.axles.get x).command = 0 ∧ t.dbs.capacity.get x = 0)
      ∧ (d.kind = .airPoll ∨ d.kind = .airCmd → t.ble.airStatus = status)
      ∧ (d.kind = .airPoll → stays → ∀ x, (t.ble.axles.get x).measured
          = if status.getLsbD 0 then (s.ble.axles.get x).measured else some (min 500 (value x)))
      ∧ (d.kind = .dbPoll ∨ d.kind = .dbCmd → t.dbs.nodeStatus = status)
      ∧ (d.kind = .dbPoll ∨ d.kind = .dbCmd → stays →
          status.getLsbD 0 = true ∨ status.getLsbD 1 = true →
          (s.dbs.state = .off ∨ s.dbs.state = .lost → t.dbs.state = s.dbs.state)
          ∧ (s.dbs.state ≠ .off → s.dbs.state ≠ .lost → t.dbs.state = .lost
            ∧ (∀ x, t.dbs.eRep.get x = 0 ∧ t.dbs.capacity.get x = 0
              ∧ (t.ble.axles.get x).command = 0)
            ∧ raised .dbLost (.node .db) (some (if status.getLsbD 0 then 1 else 2))
                (some (s.dbs.state.code : Int)) s t))
      ∧ (d.kind = .dbCmd → stays → status.getLsbD 0 = false → status.getLsbD 1 = false →
          t.dbs.state = s.dbs.state ∧ t.dbs.eRep = s.dbs.eRep)
      ∧ (d.kind = .dbPoll → stays → status.getLsbD 0 = false → status.getLsbD 1 = false →
          let ready := (payload.getD 12 0).getLsbD 0
          let excited := s.dbs.state = .exciting ∧ ready = true ∧ s.nlc.health.db.state = .healthy
          let dropped := (s.dbs.state = .available ∨ s.dbs.state = .cool) ∧ ready = false
          (excited → t.dbs.state = .available
            ∧ raised .dbAvailable (.node .db) (some (s.dbs.exciteTime : Int)) none s t)
          ∧ (dropped → t.dbs.state = .lost ∧ (∀ x, t.dbs.eRep.get x = 0)
            ∧ raised .dbLost (.node .db) (some 3) (some (s.dbs.state.code : Int)) s t)
          ∧ (¬ excited → ¬ dropped → t.dbs.state = s.dbs.state)
          ∧ (s.dbs.state ≠ .off → t.dbs.state ≠ .lost →
            ∀ x, t.dbs.eRep.get x = min 800 (value x)))
      ∧ (∀ r, stays → s.nlc.records[slot]? = some r →
          let flags : Byte := status &&& ~~~d.ignore
          let fails := flags ≠ 0 ∧ d.retryOnStatus = true
          (flags ≠ 0 → flags ≠ r.lastFlags →
            logged .statusSet (.schedSlot slot) (some (flags.toNat : Int))
              (some (if d.retryOnStatus then 1 else 0)) t)
          ∧ (¬ fails → t.nlc.progress = .between (slot + 1) (start + d.interval)
            ∧ t.nlc.records[slot]? = some { r with
                outcome := if a.number = 1 then .ok else .okAfterRetry, lastFlags := flags })
          ∧ (fails → (s.pst.active.link.retryEnable = false ∨ d.policy = .none) →
            t.nlc.progress = .between (slot + 1) (start + d.interval)
            ∧ t.nlc.records[slot]? = some { r with
                outcome := .failed, lastCause := some .status
                failedCount := min 65535 (r.failedCount + 1), lastFlags := flags }))

/-- A record with an error in start byte, length or CRC, of the wrong node, kind or length, fails the attempt
it answers, in whatever phase of the attempt it comes (log 21); one with another sequence number is stale, and
one that answers no attempt is late (which those are: log 24): both raise LATE_REPLY, and no block takes
anything from them. While the link is IDLE nothing is heard.
That a stale reply which ends after the Response Timeout leaves the attempt at the deadline passed is the model's
choice (log 64). -/
def Obligations.WrongRecordIsNotTaken : Prop :=
  ∀ (line : Line) (bytes : List Byte) (s : State), s.sys.phase = .live →
    (s.nlc.link = .idle → exec (.nodeRecordReceived line bytes) s = .next (grant s))
    ∧ (∀ slot start a d node, s.nlc.link ≠ .idle → s.nlc.progress = .attempt slot start a →
        a.line = line → (s.nlc.area s.nlc.inUse).slots[slot]? = some d → d.node = some node →
        ((parseNode bytes = none ∨ ∃ r, parseNode bytes = some r ∧ (r.address ≠ node.address
            ∨ r.kind ≠ (expectedReply d.kind).1 ∨ r.payload.length ≠ (expectedReply d.kind).2)) →
          exec (.nodeRecordReceived line bytes) s
            = .next (grant (failAttempt slot start a .messageError s)))
        ∧ (∀ r, parseNode bytes = some r → r.address = node.address →
            r.kind = (expectedReply d.kind).1 → r.payload.length = (expectedReply d.kind).2 →
            r.seq ≠ a.seq → ∃ t, exec (.nodeRecordReceived line bytes) s = .next t
              ∧ SameBrakes { s with nlc := { s.nlc with progress := .attempt slot start { a with
                  phase := match a.phase with | .receiving x => .awaiting x | p => p } } } t
              ∧ raised .lateReply (.node node) (some line.code) (some r.seq) s t))
    ∧ ((∀ slot start a, s.nlc.progress = .attempt slot start a → a.line ≠ line) →
        s.nlc.link ≠ .idle →
        (∀ r node, parseNode bytes = some r → r.address = node.address →
          ∃ t, exec (.nodeRecordReceived line bytes) s = .next t ∧ SameBrakes s t
            ∧ raised .lateReply (.node node) (some line.code) (some r.seq) s t)
        ∧ ((∀ r node, parseNode bytes = some r → r.address ≠ Node.address node) →
          exec (.nodeRecordReceived line bytes) s = .next (grant s)))

/-- What the part builds can be read back. Every node link record and every schedule slot descriptor whose node
fits its kind is read back as it was built, with each field at every value it can have; a host record is laid
out as start byte, length, kind, tag, payload and the CRC-16 of what follows the start byte. -/
def Obligations.RecordAndDescriptorRoundTrip : Prop :=
  (∀ (address kind seq : Nat) (payload : List Byte), address < 256 → kind < 16 → seq < 16 →
    payload.length < 256 →
    parseNode (nodeRecord address kind seq payload) = some ⟨address, kind, seq, payload⟩
    ∧ (nodeRecord address kind seq payload).length = payload.length + 6)
  ∧ (∀ d : SlotDesc, d.interval < 65536 →
    ((d.kind = .compute ∧ d.node = none) ∨ ∃ n, d.node = some n ∧ nodeFits d.kind n = true) →
    descOf (be 8 d.encode.toNat) = some d)
  ∧ ∀ r : TxRecord,
    let body := BitVec.ofNat 8 r.payload.length :: r.kind :: r.tag :: r.payload
    r.bytes = [0xA5] ++ body ++ be 2 (crc16 body).toNat ∧ r.bytes.length = r.payload.length + 6

/-- SCHED_WRITE writes its descriptors from the first index on and cuts the area behind them, with the
validated mark cleared; SCHED_READ then gives descriptors that stand. The area in use, the one selected and
what lies outside the area are refused. -/
def Obligations.ScheduleWriteAndRead : Prop :=
  ∀ (tag area first : Byte) (k : AreaId) (s : State), Admits s → area.toNat = k.code →
    let old := (s.nlc.area k).slots
    (∀ l : List SlotDesc, (∀ d ∈ l, descOf (be 8 d.encode.toNat) = some d) → 1 ≤ l.length →
      l.length ≤ 31 →
      (k = s.nlc.inUse → ∃ t, exec (.schedWrite tag area first (l.map (·.encode))) s = .next t
        ∧ SameMemory s t ∧ replied 0x0B tag [12, 0] t)
      ∧ (k ≠ s.nlc.inUse → k = s.nlc.selected →
          ∃ t, exec (.schedWrite tag area first (l.map (·.encode))) s = .next t
            ∧ SameMemory s t ∧ replied 0x0B tag [4, 0] t)
      ∧ (k ≠ s.nlc.inUse → k ≠ s.nlc.selected →
          (old.length < first.toNat ∨ 32 < first.toNat + l.length) →
          ∃ t, exec (.schedWrite tag area first (l.map (·.encode))) s = .next t
            ∧ SameMemory s t ∧ replied 0x0B tag [8, 0] t)
      ∧ (k ≠ s.nlc.inUse → k ≠ s.nlc.selected → first.toNat ≤ old.length →
          first.toNat + l.length ≤ 32 →
          ∃ t, exec (.schedWrite tag area first (l.map (·.encode))) s = .next t
            ∧ SameMemory { s with nlc := s.nlc.setArea k ⟨old.take first.toNat ++ l, false⟩ } t
            ∧ replied 0x0B tag [0, BitVec.ofNat 8 (first.toNat + l.length)] t))
    ∧ ∀ count : Byte,
      (first.toNat ≤ old.length → 1 ≤ count.toNat → count.toNat ≤ 30 →
        ∃ t, exec (.schedRead tag area first count) s = .next t ∧ SameMemory s t
          ∧ replied 0x0C tag (0 :: (be 1 old.length ++ be 1 (bit (s.nlc.area k).validated)
              ++ be 1 ((old.drop first.toNat).take count.toNat).length
              ++ ((old.drop first.toNat).take count.toNat).flatMap fun d => be 8 d.encode.toNat)) t)
      ∧ ((old.length < first.toNat ∨ count.toNat = 0 ∨ 30 < count.toNat) →
        ∃ t, exec (.schedRead tag area first count) s = .next t ∧ SameMemory s t
          ∧ replied 0x0C tag [8, 0, 0, 0] t)

/-- SCHEDULE_SELECT validates the area as it stands and selects it: at once while the link is IDLE, pending
otherwise. It is refused before LINK is configured, and with the reason of the first check that fails. -/
def Obligations.ScheduleSelectValidates : Prop :=
  ∀ (tag area : Byte) (k : AreaId) (s : State), Admits s → area.toNat = k.code →
    let slots := (s.nlc.area k).slots
    let isCompute := fun d : SlotDesc => d.kind == .compute
    let sum := (slots.map fun d => max d.interval (nominal d.kind)).sum
    let limit := s.pst.active.link.framePeriod.getD 0 * 100
    let marked := (s.nlc.setArea k { s.nlc.area k with validated := true })
    (s.pst.linkOnce = false → ∃ t, exec (.scheduleSelect tag area) s = .next t ∧ SameMemory s t
      ∧ replied 0x0D tag [10, 0, 0xFF, 0, 0, 0, 0] t)
    ∧ (s.pst.linkOnce = true →
      (slots = [] → ∃ t, exec (.scheduleSelect tag area) s = .next t ∧ SameMemory s t
        ∧ replied 0x0D tag [13, 1, 0xFF, 0, 0, 0, 0] t)
      ∧ (slots ≠ [] → slots.all (fun d => !isCompute d) = true →
          ∃ t, exec (.scheduleSelect tag area) s = .next t ∧ SameMemory s t
            ∧ replied 0x0D tag [13, 2, 0xFF, 0, 0, 0, 0] t)
      ∧ ∀ before c after, slots = before ++ c :: after →
          isCompute c = true → before.all (fun d => !isCompute d) = true →
          (∀ x d y, after = x ++ d :: y → isCompute d = true →
              x.all (fun d => !isCompute d) = true →
              ∃ t, exec (.scheduleSelect tag area) s = .next t ∧ SameMemory s t
                ∧ replied 0x0D tag
                    [13, 3, BitVec.ofNat 8 (before.length + 1 + x.length), 0, 0, 0, 0] t)
          ∧ (after.all (fun d => !isCompute d) = true →
              ∀ x d y, before = x ++ d :: y → isCommand d.kind = true →
                x.all (fun d => !isCommand d.kind) = true →
                ∃ t, exec (.scheduleSelect tag area) s = .next t ∧ SameMemory s t
                  ∧ replied 0x0D tag [13, 4, BitVec.ofNat 8 x.length, 0, 0, 0, 0] t)
          ∧ (after.all (fun d => !isCompute d) = true →
              before.all (fun d => !isCommand d.kind) = true → limit < sum →
              ∃ t, exec (.scheduleSelect tag area) s = .next t ∧ SameMemory s t
                ∧ replied 0x0D tag ([13, 5, 0xFF] ++ be 4 sum) t)
          ∧ (after.all (fun d => !isCompute d) = true →
              before.all (fun d => !isCommand d.kind) = true → sum ≤ limit →
              (s.nlc.link = .idle → ∃ t, exec (.scheduleSelect tag area) s = .next t
                ∧ SameMemory { s with nlc := { marked with
                    selected := k, inUse := k, records := slots.map fun _ => ⟨.notRun, none, 0, 0⟩ } } t
                ∧ replied 0x0D tag [1, 0, 0xFF, 0, 0, 0, 0] t)
              ∧ (s.nlc.link ≠ .idle → ∃ t, exec (.scheduleSelect tag area) s = .next t
                ∧ SameMemory { s with nlc := { marked with selected := k } } t
                ∧ replied 0x0D tag [if k = s.nlc.inUse then 1 else 2, 0, 0xFF, 0, 0, 0, 0] t)))

/-- The completion of a COMPUTE hands a snapshot of the state as it stands, with the mode as the MDC's work at
that COMPUTE left it (log 37), under the next number to the capture buffer, and answers each READ_AXLES that
waited for it. Of two snapshots held, the older is dropped: the gap record begins with its number or is extended
to it, CAPTURE_MISSED is raised, and a position PENDING for it is MISSING. A COMPUTE raised in RUNNING counts
for the REPORT, which carries the values as they stand; under divisor 0 the divider becomes 0 (log 54). Where a line slot follows whose interval has not passed, the
COMPUTE slot is OK and the link waits for it. With no COMPUTE under way it has no effect (log 2). -/
def Obligations.ComputeCompletionTakesTheSnapshot : Prop :=
  ∀ s : State, s.sys.phase = .live →
    ((∀ slot start mode doneAt, s.nlc.progress ≠ .compute slot start mode doneAt) →
      exec .computeComplete s = .next (grant s))
    ∧ ∀ slot start mode doneAt, s.nlc.progress = .compute slot start mode doneAt →
      let number := if s.irc.lastSnap < 4294967295 then s.irc.lastSnap + 1 else 1
      let divisor := s.pst.active.link.reportDivisor
      let reports := mode = .running ∧ 0 < divisor ∧ divisor ≤ s.hlp.reportDivider + 1
      let flags := bit s.diu.latch.isSome + 2 * bit s.ble.shortfall
        + 4 * bit (s.ble.axles.toList.any fun x => x.clamped) + 8 * bit s.asu.degraded
        + 16 * bit s.asu.standstill + 32 * bit (s.diu.silence != .normal)
      let report : TxRecord := ⟨.report, 0x41, 0,
        be 4 s.nlc.frameCounter ++ be 2 s.diu.dReq ++ be 2 s.diu.dEff ++ be 2 s.ble.eTotal
          ++ be 2 s.dbs.eRep.sum ++ be 2 s.ble.aTotal ++ be 2 s.asu.vRef ++ be 2 flags⟩
      let snap : Snapshot := { snapshotOf number s with mode := s.mdc.workMode }
      let first := fun x : Snapshot => match s.rma.gap with | some (a, _) => a | none => x.number
      ∃ t, exec .computeComplete s = .next t ∧ t.irc.lastSnap = number
        ∧ snap ∈ t.rma.capture
        ∧ (s.rma.capture.length < 2 →
            t.rma.capture = s.rma.capture ++ [snap] ∧ t.rma.gap = s.rma.gap)
        ∧ (∀ x y, s.rma.capture = [x, y] → t.rma.capture = [y, snap]
            ∧ t.rma.gap = some (first x, x.number) ∧ isLatched .captureMissed t)
        ∧ (s.sys.resetAsked = false → ∀ tag, ⟨tag, .axles⟩ ∈ s.hlp.requests →
            replied 0x17 tag (axlesReply s) t)
        ∧ (reports → report ∈ outbox t.hlp)
        ∧ (∀ d e r, (s.nlc.area s.nlc.inUse).slots[slot]? = some d →
            (s.nlc.area s.nlc.inUse).slots[slot + 1]? = some e → s.mdc.mode ≠ .parked →
            s.nlc.records[slot]? = some r → s.sys.clock < start + d.interval →
            t.nlc.progress = .between (slot + 1) (start + d.interval)
            ∧ t.nlc.records[slot]? = some { r with outcome := .ok }
            ∧ t.hlp.reportDivider = (if mode ≠ .running then s.hlp.reportDivider
              else if divisor = 0 ∨ divisor ≤ s.hlp.reportDivider + 1 then 0
              else s.hlp.reportDivider + 1)
            ∧ ∀ x y, s.rma.capture = [x, y] →
              logged .captureMissed .absent (some (x.number : Int)) (some (first x : Int)) t
              ∧ (s.irc.lastSnap < 4294967295 → ∀ k i, s.irc.slots.get k = .capturing i →
                (∀ j, j ≠ k → (s.irc.slots.get j).isCapturing = false) →
                ∃ i' : Incident, i'.firstNumber = i.firstNumber
                  ∧ (t.irc.slots.get k
                    = if .pending ∈ i'.positions then .capturing i' else .frozen false i')
                  ∧ ∀ p : Nat, i'.positions[p]? = (i.positions[p]?).map fun z =>
                    if z = .pending ∧ i.firstNumber + p = x.number then .missing else z))

/-- At a frame end the health entry of a node moves by the node's judgement in that frame, as the tables of
R114 and R115 give it, with NODE_LOST and NODE_RESTORED; the other nodes' entries and all else stand. A frame
ends when its last slot completes, or when a slot with stop-on-error fails and the later ones are SKIPPED.
Every node's entry is then brought up to date, the axles and the dynamic brake act on it, and there follows
the halt with FRAME_STOP, the halt of a STOP, the pending start with FRAME_OVERRUN, or WAITING. A halt leaves no
CAPTURING slot a PENDING position above the last snapshot number. The frame in which the dynamic brake became
LOST may itself be clean (log 47). The premises on the area and its records hold in every state a run reaches (R103, R116). -/
def Obligations.FrameEndJudgesTheNode : Prop :=
  (∀ (node : Node) (s : State),
    let slots := (s.nlc.area s.nlc.inUse).slots.zip s.nlc.records
    let failed := ∃ x ∈ slots, x.1.node = some node ∧ x.2.outcome = .failed
    let good := ∃ x ∈ slots, x.1.node = some node
      ∧ (x.2.outcome = .ok ∨ x.2.outcome = .okAfterRetry)
    let p := s.pst.active.link
    let h := s.nlc.health.get node
    let nf := min 255 (h.failed + 1)
    let ng := min 255 (h.good + 1)
    let t := updateHealth node s
    let now := t.nlc.health.get node
    SameBrakes { s with nlc := { s.nlc with health := s.nlc.health.set node now } } t
    ∧ (failed → now.failed = nf ∧ now.good = 0
        ∧ (h.state = .lost → now.state = .lost)
        ∧ (h.state ≠ .lost → nf < p.holdFrames → now.state = .stale)
        ∧ (h.state ≠ .lost → p.holdFrames ≤ nf → now.state = .lost
            ∧ raised .nodeLost (.node node) (some nf) (some s.nlc.frameCounter) s t))
    ∧ (¬ failed → good → now.failed = 0 ∧ now.good = ng
        ∧ (h.state ≠ .lost → now.state = .healthy)
        ∧ (h.state = .lost → ng < p.reintegration → now.state = .lost)
        ∧ (h.state = .lost → p.reintegration ≤ ng → now.state = .healthy
            ∧ raised .nodeRestored (.node node) (some ng) (some s.nlc.frameCounter) s t))
    ∧ (¬ failed → ¬ good → now = h))
  ∧ ∀ (c : Instr) (slot : Nat) (d : SlotDesc) (s : State) (ended : List SlotRecord),
    let slots := (s.nlc.area s.nlc.inUse).slots
    let noRetry := fun n : Nat => s.pst.active.link.retryEnable = false ∨ d.policy = .none ∨ 3 ≤ n
      ∨ (n = 2 ∧ d.policy ≠ .sameThenAlternate)
    let fails := fun cause : FailCause =>
      (d.stopOnError = true ∨ slots.length = slot + 1)
      ∧ ∀ j : Nat, ended[j]? = (s.nlc.records[j]?).map fun r =>
        if j = slot then { r with
          outcome := .failed, lastCause := some cause
          failedCount := min 65535 (r.failedCount + 1) }
        else if slot < j then { r with outcome := .skipped } else r
    s.sys.phase = .live → s.nlc.link = .inFrame → slots[slot]? = some d →
    s.nlc.records.length = slots.length →
    (∃ e ∈ (s.nlc.area s.nlc.selected).slots, e.kind = .compute) →
    ((∃ start a, s.nlc.progress = .attempt slot start a ∧ d.node.isSome = true ∧ noRetry a.number
        ∧ ((c = .responseTimeoutExpiry ∧ (∃ x, a.phase = .awaiting x) ∧ fails .noReply)
          ∨ (c = .nodeReplyGapExpiry ∧ (∃ x, a.phase = .receiving x) ∧ fails .messageError)
          ∨ (c = .echoMismatch ∧ (∃ x, a.phase = .sending x) ∧ fails .echo)))
      ∨ (c = .computeComplete ∧ (∃ start m x, s.nlc.progress = .compute slot start m x)
        ∧ slots.length = slot + 1
        ∧ ∀ j : Nat, ended[j]? = (s.nlc.records[j]?).map fun r =>
          if j = slot then { r with outcome := .ok } else r)) →
    let stops := s.pst.active.link.frameStop = true ∧ ∃ r ∈ ended, r.outcome = .failed
    ∃ t, exec c s = .next t
      ∧ (∀ node, t.nlc.health.get node = (updateHealth node
          { s with nlc := { s.nlc with records := ended } }).nlc.health.get node)
      ∧ (∀ a, let before := (s.nlc.health.axles.get a).state
        let after := (t.nlc.health.axles.get a).state
        (before ≠ .lost → after = .lost → (t.wsc.get a).nodeCause = true
          ∧ ((s.wsc.get a).nodeCause = false → (t.wsc.get a).slide = .isolated
            ∧ ((s.wsc.get a).slide ≠ .isolated → isLatched .axleIsolated t)))
        ∧ (before ≠ .healthy → after = .healthy → (t.wsc.get a).nodeCause = false)
        ∧ (before = .healthy → after ≠ .healthy → (t.wsc.get a).slide ≠ .dump))
      ∧ (s.nlc.health.db.state ≠ .lost → t.nlc.health.db.state = .lost → s.dbs.state ≠ .off →
        t.dbs.state = .lost ∧ (s.dbs.state ≠ .lost → isLatched .dbLost t))
      ∧ (stops ∨ s.nlc.haltRequested = true →
        t.nlc.link = .idle ∧ t.mdc.mode = .stopped ∧ t.nlc.progress = .none
        ∧ t.nlc.startPending = none ∧ t.nlc.haltRequested = false
        ∧ (stops → isLatched .frameStop t)
        ∧ ((∀ j k, (s.irc.slots.get j).isCapturing = true → (s.irc.slots.get k).isCapturing = true →
            j = k) → ∀ k i, t.irc.slots.get k = .capturing i → ∀ p : Nat,
          i.positions[p]? = some .pending → i.firstNumber + p ≤ t.irc.lastSnap))
      ∧ (¬ stops → s.nlc.haltRequested = false → s.nlc.startPending = none →
        t.nlc.link = .waiting ∧ t.nlc.progress = .none ∧ t.nlc.records = ended
        ∧ t.nlc.seq = s.nlc.seq ∧ t.mdc = s.mdc
        ∧ (s.dbs.state = .lost →
          let node := (slots.zip ended).filter fun x => x.1.node == some .db
          let clean := (∃ x ∈ node, x.2.outcome = .ok ∨ x.2.outcome = .okAfterRetry)
            ∧ (∀ x ∈ node, x.2.outcome ≠ .failed) ∧ s.dbs.faultInFrame = false
          let n := min 255 (s.dbs.cleanFrames + 1)
          let rested := s.pst.active.link.reintegration ≤ n ∧ t.nlc.health.db.state = .healthy
          (¬ clean → t.dbs.state = .lost ∧ t.dbs.cleanFrames = 0)
          ∧ (clean → ¬ rested → t.dbs.state = .lost ∧ t.dbs.cleanFrames = n)
          ∧ (clean → rested → t.dbs.state = .rest ∧ t.dbs.restTime = 0
            ∧ t.dbs.pendingEnable = false ∧ t.dbs.cleanFrames = 0)))
      ∧ ∀ count, ¬ stops → s.nlc.haltRequested = false → s.nlc.startPending = some count →
        t.nlc.frameCounter = (s.nlc.frameCounter + 1) % 4294967296
        ∧ t.nlc.frameDue = s.nlc.pendingDue ∧ t.nlc.startPending = none
        ∧ isLatched .frameOverrun t

/-! ## Parameter sets (07) -/

/-- PARAM_WRITE writes its values into the staging copy alone, each into its own field; it is refused for a
set that is none, a set that is pending, a range of fields that ends behind the set, and a value out of its
range, whose field index it tells (log 55). PARAM_READ gives the fields of either copy, unset ones as all ones. -/
def Obligations.ParamWriteAndRead : Prop :=
  ∀ (tag code first : Byte) (s : State), Admits s → BrakeInv s →
    (∀ values : List Word64, 1 ≤ values.length → values.length ≤ 31 → 6 ≤ code.toNat →
      ∃ t, exec (.paramWrite tag code first values) s = .next t
        ∧ SameMemory s t ∧ replied 0x08 tag [8, 0xFF] t)
    ∧ (∀ (values : List Word64) (x : ParamSet), 1 ≤ values.length → values.length ≤ 31 →
      code.toNat = x.code →
      let n := first.toNat + values.length
      let ok := ∀ i v, values[i]? = some v → inRange x (first.toNat + i) v.toNat = true
      (x ∈ s.pst.pendingSets → ∃ t, exec (.paramWrite tag code first values) s = .next t
        ∧ SameMemory s t ∧ replied 0x08 tag [4, 0xFF] t)
      ∧ (x ∉ s.pst.pendingSets → fieldCount x < n →
        ∃ t, exec (.paramWrite tag code first values) s = .next t
          ∧ SameMemory s t ∧ replied 0x08 tag [8, 0xFF] t)
      ∧ (x ∉ s.pst.pendingSets → n ≤ fieldCount x → ∀ i v, values[i]? = some v →
        inRange x (first.toNat + i) v.toNat = false →
        (∀ j w, j < i → values[j]? = some w → inRange x (first.toNat + j) w.toNat = true) →
        ∃ t, exec (.paramWrite tag code first values) s = .next t
          ∧ SameMemory s t ∧ replied 0x08 tag [8, BitVec.ofNat 8 (first.toNat + i)] t)
      ∧ (x ∉ s.pst.pendingSets → n ≤ fieldCount x → ok →
        ∃ t, exec (.paramWrite tag code first values) s = .next t
          ∧ replied 0x08 tag [0, 0xFF] t
          ∧ SameMemory { s with pst := { s.pst with staging := t.pst.staging } } t
          ∧ (∀ i v, values[i]? = some v →
              getField x (first.toNat + i) t.pst.staging = some v.toNat)
          ∧ ∀ y i, i < fieldCount y → y ≠ x ∨ i < first.toNat ∨ n ≤ i →
              getField y i t.pst.staging = getField y i s.pst.staging))
    ∧ ∀ copy count : Byte,
      (∀ x : ParamSet, code.toNat = x.code → copy.toNat < 2 → 0 < count.toNat →
        first.toNat + count.toNat ≤ fieldCount x →
        let from' := if copy = 0 then s.pst.staging else s.pst.active
        ∃ t, exec (.paramRead tag code copy first count) s = .next t ∧ SameMemory s t
          ∧ replied 0x09 tag (0 :: BitVec.ofNat 8 (bit (s.pst.pendingSets.contains x)) :: count
            :: (List.range count.toNat).flatMap fun i =>
              match getField x (first.toNat + i) from' with
              | some v => be 8 v
              | none => List.replicate 8 0xFF) t)
      ∧ (6 ≤ code.toNat ∨ 2 ≤ copy.toNat ∨ count.toNat = 0
          ∨ (∃ x : ParamSet, code.toNat = x.code ∧ fieldCount x < first.toNat + count.toNat) →
        ∃ t, exec (.paramRead tag code copy first count) s = .next t ∧ SameMemory s t
          ∧ replied 0x09 tag [8, 0, 0] t)

/-- The conditions of validation: every field of LINK and WHEEL set, Emergency Pressure at or above the
ceiling, the used breakpoints strictly rising and Heat Low below Heat High, the window within 1024 and Pre
Count within half the ring. SLIDE always passes. -/
def Obligations.ValidationConditions : Prop :=
  ∀ p : Params,
    (validate .link p = none ↔ p.link.framePeriod.isSome = true)
    ∧ (p.link.framePeriod = none → validate .link p = some (0, 1))
    ∧ (validate .wheel p = none ↔
      (∀ a, (p.wheel.circumference.get a).isSome = true) ∧ p.wheel.pulses.isSome = true)
    ∧ (∀ i, validate .wheel p = some (i, 1) ↔ i < 7 ∧ p.wheel.get i = none
        ∧ ∀ j, j < i → (p.wheel.get j).isSome = true)
    ∧ validate .blend p
      = (if p.blend.ceiling ≤ p.blend.emergencyPressure then none else some (5, 2))
    ∧ validate .slide p = none
    ∧ (validate .dbrake p = none ↔
      (p.dbrake.points.take p.dbrake.count).Pairwise (fun x y => x.1 < y.1)
        ∧ p.dbrake.heatLow < p.dbrake.heatHigh)
    ∧ (∀ i x y, (p.dbrake.points.take p.dbrake.count)[i]? = some x →
        (p.dbrake.points.take p.dbrake.count)[i + 1]? = some y → y.1 ≤ x.1 →
        ((p.dbrake.points.take p.dbrake.count).take (i + 1)).Pairwise (fun x y => x.1 < y.1) →
        validate .dbrake p = some (1 + 2 * (i + 1), 3))
    ∧ ((p.dbrake.points.take p.dbrake.count).Pairwise (fun x y => x.1 < y.1) →
        p.dbrake.heatHigh ≤ p.dbrake.heatLow → validate .dbrake p = some (19, 4))
    ∧ validate .recorder p
      = (if 1024 < p.recorder.preCount + p.recorder.postCount then some (2, 5)
        else if p.recorder.ringCapacity / 2 < p.recorder.preCount then some (1, 6) else none)

/-- PARAM_COMMIT with every check passed activates its sets at once while the link is IDLE, with
CONFIG_COMMIT, and makes them pending otherwise. The first check that fails refuses it: a code that is no
set or stands twice, a set that is pending, a new ring capacity outside UNCONFIGURED, READY and STOPPED or
with a slot CAPTURING, a set that does not validate. What the blocks do at the activation of a set is shown for
a commit of one set (logs 16, 17, 46). -/
def Obligations.ParamCommitActivatesOrPends : Prop :=
  ∀ (tag : Byte) (s : State), Admits s →
    (∀ codes : List Byte, 1 ≤ codes.length → codes.length ≤ 6 →
      ((∃ b ∈ codes, 6 ≤ b.toNat) ∨ ¬ codes.Nodup) →
      ∃ t, exec (.paramCommit tag codes) s = .next t ∧ SameMemory s t
        ∧ replied 0x0A tag [8, 0xFF, 0xFF, 0] t)
    ∧ ∀ l : List ParamSet, l ≠ [] → l.Nodup →
      let c : Instr := .paramCommit tag (l.map fun x => BitVec.ofNat 8 x.code)
      let newRing := .recorder ∈ l
        ∧ s.pst.staging.recorder.ringCapacity ≠ s.pst.active.recorder.ringCapacity
      let mayResize := s.mdc.mode = .unconfigured ∨ s.mdc.mode = .ready ∨ s.mdc.mode = .stopped
      let capturing := ∃ k, (s.irc.slots.get k).isCapturing = true
      let fails := fun x : ParamSet => ∃ i r, validate x s.pst.staging = some (i, r)
      (∀ a x b, l = a ++ x :: b → x ∈ s.pst.pendingSets → (∀ y ∈ a, y ∉ s.pst.pendingSets) →
        ∃ t, exec c s = .next t ∧ SameMemory s t
          ∧ replied 0x0A tag [4, BitVec.ofNat 8 x.code, 0xFF, 0] t)
      ∧ ((∀ x ∈ l, x ∉ s.pst.pendingSets) →
        (newRing → ¬ mayResize → ∃ t, exec c s = .next t ∧ SameMemory s t
          ∧ replied 0x0A tag [9, 5, 0xFF, 0] t)
        ∧ (newRing → mayResize → capturing → ∃ t, exec c s = .next t ∧ SameMemory s t
          ∧ replied 0x0A tag [4, 5, 0xFF, 0] t)
        ∧ (¬ (newRing ∧ (¬ mayResize ∨ capturing)) →
          (∀ a x b i r, l = a ++ x :: b → validate x s.pst.staging = some (i, r) →
            (∀ y ∈ a, ¬ fails y) → ∃ t, exec c s = .next t ∧ SameMemory s t
              ∧ replied 0x0A tag [13, BitVec.ofNat 8 x.code, BitVec.ofNat 8 i, BitVec.ofNat 8 r] t)
          ∧ ((∀ x ∈ l, ¬ fails x) → s.nlc.link ≠ .idle → ∃ t, exec c s = .next t
            ∧ replied 0x0A tag [2, 0xFF, 0xFF, 0] t
            ∧ SameMemory { s with pst := { s.pst with pendingSets := t.pst.pendingSets } } t
            ∧ ∀ x, x ∈ t.pst.pendingSets ↔ x ∈ s.pst.pendingSets ∨ x ∈ l)
          ∧ ((∀ x ∈ l, ¬ fails x) → s.nlc.link = .idle → ∃ t, exec c s = .next t
            ∧ replied 0x0A tag [1, 0xFF, 0xFF, 0] t ∧ isLatched .configCommit t
            ∧ t.pst = { s.pst with
                active := l.foldl (fun p x => copySet x s.pst.staging p) s.pst.active
                pendingSets := []
                linkOnce := s.pst.linkOnce || l.contains .link
                wheelOnce := s.pst.wheelOnce || l.contains .wheel }
            ∧ t.mdc.mode = (if s.mdc.mode = .unconfigured ∧ t.pst.linkOnce = true
                ∧ t.pst.wheelOnce = true then .ready else s.mdc.mode)
            ∧ t.nlc = s.nlc ∧ t.sys = s.sys ∧ t.pending = s.pending
            ∧ (.blend ∈ l → t.diu.indep = min s.diu.indep t.pst.active.blend.ceiling)
            ∧ (.blend ∉ l → t.diu = s.diu)
            ∧ t.asu.vRef = s.asu.vRef
            ∧ (∀ a, (t.asu.axles.get a).fresh = ((s.asu.axles.get a).fresh && !l.contains .wheel))
            ∧ (.recorder ∈ l → t.irc.ringCapacity = t.pst.active.recorder.ringCapacity
              ∧ t.irc.ring = if t.irc.ringCapacity = s.irc.ringCapacity then s.irc.ring else [])
            ∧ (.recorder ∉ l → t.irc.ringCapacity = s.irc.ringCapacity
              ∧ t.irc.ring = s.irc.ring)
            ∧ ∀ x, l = [x] → Activated x s t)))

/-! ## Incident recorder (08) -/

/-- MARK raises HOST_MARK with the mark as value 1 in every mode, with a notice where the notice mask holds the
kind and a place is free, and its reply carries the log sequence of that entry. With HOST_MARK in the active
trigger set it is a secondary trigger of the incident being captured, or opens one: in the first FREE slot,
with none FREE in the unprotected one opened earliest, whose record is discarded with INCIDENT_REPLACED, and
with every slot protected nowhere, with INCIDENT_LOST. The pre part holds what the ring still can give; the
post part is MISSING at once while the link is IDLE. HOST_MARK is in the default set. -/
def Obligations.MarkRaisesHostMark : Prop :=
  (∀ capacity, EventKind.hostMark.mem (Params.defaults capacity).recorder.triggers = true)
  ∧ ∀ (tag : Byte) (value : BitVec 16) (s : State), Admits s →
    let c := s.irc
    let seq := if c.lastLog < 4294967295 then c.lastLog + 1 else 1
    let number := if c.lastIncident < 4294967295 then c.lastIncident + 1 else 1
    let age := fun i : Incident => (c.lastIncident + 4294967295 - i.number) % 4294967295
    let pre := s.pst.active.recorder.preCount
    let post := s.pst.active.recorder.postCount
    let gone := fun n : Int => n < 1
      ∨ (∃ e, c.ring.head? = some e ∧ n < e.first)
      ∨ (∃ a b, RingEntry.gap a b ∈ c.ring ∧ (a : Int) ≤ n ∧ n ≤ b)
      ∨ (c.ring = [] ∧ (∀ x ∈ s.rma.capture, (x.number : Int) ≠ n)
        ∧ ∀ a b, s.rma.gap = some (a, b) → n < a ∨ (b : Int) < n)
    let opens := fun (k : SlotId) (t : State) =>
      t.irc.lastIncident = number
      ∧ logged .incidentOpen (.incidentSlot k) (some (number : Int)) (some 47) t
      ∧ (∀ j, j ≠ k → t.irc.slots.get j = c.slots.get j)
      ∧ ∃ i : Incident, i.number = number ∧ i.triggerKind = .hostMark ∧ i.triggerSeq = seq
        ∧ i.triggerTime = c.timeTag ∧ i.triggerSnap = c.lastSnap ∧ i.secondary = []
        ∧ i.further = 0 ∧ i.pre = pre ∧ i.post = post ∧ i.positions.length = pre + post
        ∧ (∀ x ∈ i.positions, x = Position.pending ∨ x = Position.missing)
        ∧ (∀ j : Nat, j < pre → (i.positions[j]? = some Position.missing ↔
            gone ((c.lastSnap : Int) - pre + 1 + j)))
        ∧ (∀ j : Nat, pre ≤ j → j < pre + post →
            (i.positions[j]? = some Position.missing ↔ s.nlc.link = .idle))
        ∧ (Position.pending ∈ i.positions → t.irc.slots.get k = .capturing i)
        ∧ (Position.pending ∉ i.positions → t.irc.slots.get k = .frozen false i
          ∧ (0 < pre + post → logged .incidentIncomplete (.incidentSlot k) (some (number : Int))
              (some ((pre + post : Nat) : Int)) t))
    ∃ t, exec (.mark tag value) s = .next t ∧ SameBrakes s t
      ∧ raised .hostMark .absent (some (value.toNat : Int)) none s t
      ∧ (nextEntry .hostMark .absent (some (value.toNat : Int)) none s).seq = seq
      ∧ replied 0x0F tag (0 :: be 4 seq) t
      ∧ (EventKind.hostMark.mem s.hlp.noticeMask = true →
        (waitingOf .notice s.hlp < 8 → (⟨.notice, 0x40, 0, be 4 seq ++ be 4 c.timeTag ++ [47, 0, 0, 1]
          ++ be 4 value.toNat ++ [0, 0, 0, 0]⟩ : TxRecord) ∈ outbox t.hlp)
        ∧ (8 ≤ waitingOf .notice s.hlp → t.hlp.overflow = true))
      ∧ (EventKind.hostMark.mem s.pst.active.recorder.triggers = true →
        (∀ k i, c.slots.get k = .capturing i →
          (∀ j, j ≠ k → (c.slots.get j).isCapturing = false) →
          t.irc.slots.get k = .capturing (if i.secondary.length < 8
            then { i with secondary := i.secondary ++ [(.hostMark, seq)] }
            else { i with further := min 65535 (i.further + 1) }))
        ∧ ((∀ k, (c.slots.get k).isCapturing = false) →
          (∀ k, c.slots.get k = .free →
            (∀ j : SlotId, j.number < k.number → c.slots.get j ≠ .free) → opens k t)
          ∧ (∀ k i, c.slots.get k = .frozen false i → (∀ j, c.slots.get j ≠ .free) →
            (∀ j i', j ≠ k → c.slots.get j = .frozen false i' → age i' < age i) →
            opens k t ∧ logged .incidentReplaced (.incidentSlot k) (some (i.number : Int)) none t
              ∧ t.rma.slotCursors.get k = none)
          ∧ ((∀ k, ∃ i, c.slots.get k = .frozen true i) →
            t.irc.slots = c.slots ∧ t.irc.lastIncident = c.lastIncident
            ∧ logged .incidentLost .absent (some 47) (some (seq : Int)) t)))

/-- INCIDENT_LIST shows a slot with the extents of ring and log, a GAP at an end of the ring by its first number
as the oldest and by its last as the newest (log 38); PROTECT protects a FROZEN slot; RELEASE
frees it with its marks and its cursor, and is OK for a FREE one. Elsewhere each is refused, with STATE or,
outside slots 1 to 4, with RANGE. -/
def Obligations.IncidentSlotRequests : Prop :=
  ∀ (tag slot : Byte) (s : State), Admits s →
    (slot.toNat = 0 ∨ 4 < slot.toNat →
      (∃ t, exec (.incidentList tag slot) s = .next t ∧ SameMemory s t
        ∧ replied 0x10 tag (8 :: List.replicate 52 0) t)
      ∧ (∃ t, exec (.protect tag slot) s = .next t ∧ SameMemory s t ∧ replied 0x11 tag [8] t)
      ∧ ∃ t, exec (.release tag slot) s = .next t ∧ SameMemory s t ∧ replied 0x12 tag [8] t)
    ∧ ∀ k : SlotId, slot.toNat = k.number →
      let c := s.irc
      let ends := be 2 c.ringCapacity ++ be 2 c.ring.length
        ++ be 4 (match c.ring.head? with | some e => e.first | none => 0)
        ++ be 4 (match c.ring.getLast? with | some e => e.last | none => 0)
        ++ be 2 c.log.length ++ be 4 (match c.log.head? with | some e => e.seq | none => 0)
        ++ be 4 (match c.log.getLast? with | some e => e.seq | none => 0)
      let record := fun (state prot : Byte) (i : Incident) =>
        [0, state, prot] ++ be 4 i.number ++ [BitVec.ofNat 8 i.triggerKind.code]
          ++ be 4 i.triggerSeq ++ be 4 i.triggerTime ++ be 4 i.triggerSnap ++ be 2 i.pre
          ++ be 2 i.post ++ be 2 (i.positions.countP (· == .missing))
          ++ be 2 (i.positions.countP Position.isCopied) ++ be 2 i.further ++ ends
          ++ [BitVec.ofNat 8 i.secondary.length]
          ++ i.secondary.flatMap fun x => BitVec.ofNat 8 x.1.code :: be 4 x.2
      (∃ t, exec (.incidentList tag slot) s = .next t ∧ SameMemory s t
        ∧ replied 0x10 tag (match s.irc.slots.get k with
          | .free => List.replicate 30 0 ++ ends ++ [0]
          | .capturing i => record 1 0 i
          | .frozen p i => record 2 (BitVec.ofNat 8 (bit p)) i) t)
      ∧ (∀ p i, s.irc.slots.get k = .frozen p i →
        (∃ t, exec (.protect tag slot) s = .next t ∧ replied 0x11 tag [0] t
          ∧ SameMemory { s with irc := { c with slots := c.slots.set k (.frozen true i) } } t)
        ∧ ∃ t, exec (.release tag slot) s = .next t ∧ replied 0x12 tag [0] t
          ∧ SameMemory { s with irc := { c with
              slots := c.slots.set k .free
              marks := { c.marks with slots := c.marks.slots.set k [] } } } t
          ∧ t.rma.slotCursors = s.rma.slotCursors.set k none)
      ∧ (∀ i, s.irc.slots.get k = .capturing i →
        (∃ t, exec (.protect tag slot) s = .next t ∧ SameMemory s t ∧ replied 0x11 tag [9] t)
        ∧ ∃ t, exec (.release tag slot) s = .next t ∧ SameMemory s t ∧ replied 0x12 tag [9] t)
      ∧ (s.irc.slots.get k = .free →
        (∃ t, exec (.protect tag slot) s = .next t ∧ SameMemory s t ∧ replied 0x11 tag [9] t)
        ∧ ∃ t, exec (.release tag slot) s = .next t ∧ SameMemory s t ∧ replied 0x12 tag [0] t)

/-- LOG_CLEAR and RING_CLEAR empty their collection with its damage marks, numbers going on; with a slot
CAPTURING they are refused with BUSY. That the next entry goes to place 0 is the model's reading (log 18).
The wrap of the time tag sets it to 0 and raises TIME_WRAP. -/
def Obligations.ClearsAndTimeWrap : Prop :=
  ∀ (tag : Byte) (s : State), Admits s →
    ((∃ k, (s.irc.slots.get k).isCapturing = true) →
      (∃ t, exec (.logClear tag) s = .next t ∧ SameMemory s t ∧ replied 0x13 tag [4] t)
      ∧ ∃ t, exec (.ringClear tag) s = .next t ∧ SameMemory s t ∧ replied 0x14 tag [4] t)
    ∧ ((∀ k, (s.irc.slots.get k).isCapturing = false) →
      (∃ t, exec (.logClear tag) s = .next t ∧ replied 0x13 tag [1] t
        ∧ SameMemory { s with irc := { s.irc with
            log := [], logPlace := 0, overwrites := 0, marks := { s.irc.marks with log := [] } } } t)
      ∧ ∃ t, exec (.ringClear tag) s = .next t ∧ replied 0x14 tag [1] t
        ∧ SameMemory { s with irc := { s.irc with
            ring := [], ringPlace := 0, marks := { s.irc.marks with ring := [] } } } t)
    ∧ ∃ t, exec .timeTagWrap s = .next t ∧ SameBrakes s t ∧ t.irc.timeTag = 0
      ∧ raised .timeWrap .absent none none { s with irc := { s.irc with timeTag := 0 } } t

/-! ## Record memory (09) -/

/-- A free memory is granted in the order of R153: the next item of a held burst unless capture waits and takes
the memory, then capture (the snapshots, then the log entries), then copy, then the scrub, then a readout,
which starts a burst. Burst Yield is judged at an item boundary, and what took the memory there keeps it while
capture waits; the service of the next request then begins after it (log 41). When a burst serves the queue, the
head's start is located: it is answered without an item, or its first item is read as it then stands; a next
item that no longer stands ends its reply. A held burst with no read left ends, and the other work is granted.
With none of these nothing is granted, and a memory that is BUSY is not granted again. The number in a slot's
STATE reply is that of log 20, and a place is counted in its region's ring order (R132). -/
def Obligations.MemoryIsGrantedInOrder : Prop :=
  ∀ s : State,
    let c := s.irc
    let granted := fun (b : Option Burst) (w : MemWork) (time : Nat) => grant s = { s with
      rma := { s.rma with memory := some ⟨w, s.sys.clock + time⟩, burst := b } }
    let snapshots := s.rma.gap ≠ none ∨ s.rma.capture ≠ []
    let waits := snapshots ∨ s.rma.logBuf ≠ []
    let takes := fun b : Burst =>
      (b.yielded = true ∨ s.pst.active.recorder.burstYield = true) ∧ waits
    let due := s.rma.scrubPos * s.pst.active.recorder.scrubPeriod * 1000 / 4096 ≤ s.rma.passTimer
    let idle := s.rma.burst = none ∧ ¬ waits ∧ (copyWork c).isSome = false ∧ ¬ due
    let reads := fun (b : Burst) (r : ReadReq) (sv : Service) (it : Item) => grant s = { s with
      rma := { s.rma with
        memory := some ⟨.readItem, s.sys.clock + 20⟩, burst := some b
        reading := some ⟨it, isMarked r.source it.place c.marks, successor r sv it c⟩ }
      hlp := { s.hlp with
        requests := setHeadRead (some { r with service := some sv }) s.hlp.requests } }
    let fresh : Burst := ⟨0, s.pst.active.recorder.readBurst, false⟩
    let none' : List Byte := [0, 0, 0, 0, 0, 0]
    let serves := fun b : Burst => (idle ∧ b = fresh)
      ∨ ∃ held, s.rma.burst = some held ∧ ¬ takes held ∧ b = { held with yielded := false }
    (s.rma.memory ≠ none → grant s = s)
    ∧ (s.rma.memory = none →
      (∀ b, s.rma.burst = some b → ¬ takes b → headRead s.hlp.requests = none →
        grant s = grant { s with rma := { s.rma with burst := none } })
      ∧ (∀ b, s.rma.burst = some b → takes b →
        (snapshots → granted (some { b with yielded := true }) .snapshotWrite 20)
        ∧ (¬ snapshots → granted (some { b with yielded := true }) .logWrite 4))
      ∧ (s.rma.burst = none → snapshots → granted none .snapshotWrite 20)
      ∧ (s.rma.burst = none → ¬ snapshots → s.rma.logBuf ≠ [] → granted none .logWrite 4)
      ∧ (s.rma.burst = none → ¬ waits →
        ((copyWork c).isSome = true → granted none .copy 40)
        ∧ ((copyWork c).isSome = false → due → granted none .scrub 30))
      ∧ (idle → headRead s.hlp.requests = none → grant s = s)
      ∧ (∀ b tag r sv, serves b → headRead s.hlp.requests = some (tag, r) → r.service = some sv →
        (∀ it, nextItem r sv c = some it → reads b r sv it)
        ∧ (nextItem r sv c = none → s.sys.resetAsked = false →
          (r.source = .ring → replied 0x15 tag (14 :: (be 4
            (match c.ring.head? with | some e => e.first | none => 0)
              ++ be 1 sv.taken ++ sv.bytes)) (grant s))
          ∧ (r.source = .log → replied 0x16 tag (14 :: (be 4
            (match c.log.head? with | some e => e.seq | none => 0)
              ++ be 1 sv.taken ++ sv.bytes)) (grant s))
          ∧ (∀ k, r.source = .slot k →
            replied 0x15 tag (9 :: (be 4 sv.incident ++ be 1 sv.taken ++ sv.bytes)) (grant s))))
      ∧ (∀ b tag r, serves b → headRead s.hlp.requests = some (tag, r) → r.service = none →
        let answers := fun (kind : Byte) (p : List Byte) =>
          s.sys.resetAsked = false → replied kind tag p (grant s)
        let moves := fun n : Nat => s.hlp.requests = [⟨tag, .read r⟩] →
          cursorOf r.source (grant s).rma = some (n : Int)
        (r.source = .ring →
          let start := r.start.or (s.rma.ringCursor.or (c.ring.head?.map (·.first)))
          (start = none → answers 0x15 none')
          ∧ ∀ n, start = some n →
            (c.ring = [] → n ≤ c.highSnap → answers 0x15 [14, 0, 0, 0, 0, 0])
            ∧ (c.ring = [] → c.highSnap < n → answers 0x15 none' ∧ moves n)
            ∧ ∀ e l, c.ring.head? = some e → c.ring.getLast? = some l →
              (n < e.first → answers 0x15 (14 :: (be 4 e.first ++ [0])))
              ∧ (e.first ≤ n → l.last < n → answers 0x15 none' ∧ moves n)
              ∧ (e.first ≤ n → n ≤ l.last → ∀ (idx : Nat) (x : RingEntry), c.ring[idx]? = some x →
                x.first ≤ n → n ≤ x.last →
                (∀ (j : Nat) y, j < idx → c.ring[j]? = some y → ¬ (y.first ≤ n ∧ n ≤ y.last)) →
                reads b r ⟨n, 0, [], 0⟩ ⟨idx, (c.ringPlace + idx) % max 1 c.ringCapacity,
                  match x with | .snapshot m => .snapshot m | .gap a b => .gap a b⟩))
        ∧ (r.source = .log →
          let start := r.start.or (s.rma.logCursor.or (c.log.head?.map (·.seq)))
          (start = none → answers 0x16 none')
          ∧ ∀ n, start = some n →
            (c.log = [] → n ≤ c.highLog → answers 0x16 [14, 0, 0, 0, 0, 0])
            ∧ (c.log = [] → c.highLog < n → answers 0x16 none' ∧ moves n)
            ∧ ∀ e l, c.log.head? = some e → c.log.getLast? = some l →
              (n < e.seq → answers 0x16 (14 :: (be 4 e.seq ++ [0])))
              ∧ (e.seq ≤ n → l.seq < n → answers 0x16 none' ∧ moves n)
              ∧ (e.seq ≤ n → n ≤ l.seq → ∀ (idx : Nat) (x : LogEntry), c.log[idx]? = some x →
                n ≤ x.seq → (∀ (j : Nat) y, j < idx → c.log[j]? = some y → y.seq < n) →
                reads b r ⟨x.seq, 0, [], 0⟩ ⟨idx, (c.logPlace + idx) % 1024, .event x⟩))
        ∧ ∀ k, r.source = .slot k →
          (c.slots.get k = .free → answers 0x15 [9, 0, 0, 0, 0, 0])
          ∧ (∀ i, c.slots.get k = .capturing i → answers 0x15 (9 :: (be 4 i.number ++ [0])))
          ∧ ∀ p i, c.slots.get k = .frozen p i →
            let start : Int := match r.start with
              | some n => n
              | none => (s.rma.slotCursors.get k).getD i.firstNumber
            let idx := (start - i.firstNumber).toNat
            (start < i.firstNumber ∨ i.firstNumber + i.positions.length ≤ start →
              answers 0x15 (8 :: (be 4 i.number ++ [0])))
            ∧ (∀ x, i.firstNumber ≤ start → i.positions[idx]? = some x →
              reads b r ⟨start, 0, [], i.number⟩ ⟨idx, idx, match x with
                | .copied m => .snapshot { m with number := start.toNat }
                | _ => .missing start⟩)))

/-- An accepted READ_SNAPSHOTS or READ_EVENTS joins the readout queue, and a READ_AXLES during a COMPUTE
waits for its end: shown with the memory BUSY, when nothing is granted at once. READ_AXLES at any other time
is answered at once. A field that stands for nothing is refused with RANGE (every number is a start, 0 among
them, the model's choice, log 61), a slot that is not FROZEN with
STATE; for a slot the number of the incident it holds is given, 0 for a FREE one (log 20). -/
def Obligations.ReadsJoinTheQueue : Prop :=
  ∀ (tag source cont countStride mask count : Byte) (first : BitVec 32) (s : State), Admits s →
    let joins := fun (c : Instr) (w : WaitFor) => s.rma.memory ≠ none →
      exec c s = .next { s with hlp := { s.hlp with requests := s.hlp.requests ++ [⟨tag, w⟩] } }
    let refused := fun (c : Instr) (kind code : Byte) (number : Nat) =>
      ∃ t, exec c s = .next t ∧ SameMemory s t
        ∧ replied kind tag (code :: (be 4 number ++ [0])) t
    let held := fun k : SlotId => match s.irc.slots.get k with
      | .free => 0 | .capturing i => i.number | .frozen _ i => i.number
    let start := if cont = 1 then none else some first.toNat
    let snapshots : Instr := .readSnapshots tag source cont first countStride mask
    let events : Instr := .readEvents tag cont first count
    let inRange := cont.toNat < 2 ∧ countStride.toNat % 16 < 4 ∧ mask.toNat < 64
    let request := fun x : ReadSource => WaitFor.read
      ⟨x, start, countStride.toNat / 16 + 1, 2 ^ (countStride.toNat % 16), mask, 0, none⟩
    (4 < source.toNat → refused snapshots 0x15 8 0)
    ∧ (¬ inRange → source = 0 → refused snapshots 0x15 8 0)
    ∧ (inRange → source = 0 → joins snapshots (request .ring))
    ∧ (∀ k : SlotId, source.toNat = k.number →
      (¬ inRange → refused snapshots 0x15 8 (held k))
      ∧ (inRange → ∀ p i, s.irc.slots.get k = .frozen p i → joins snapshots (request (.slot k)))
      ∧ (inRange → (∀ p i, s.irc.slots.get k ≠ .frozen p i) →
        refused snapshots 0x15 9 (held k)))
    ∧ (cont.toNat < 2 → 1 ≤ count.toNat → count.toNat ≤ 16 →
      joins events (.read ⟨.log, start, count.toNat, 1, 0, 0, none⟩))
    ∧ (2 ≤ cont.toNat ∨ count.toNat = 0 ∨ 16 < count.toNat → refused events 0x16 8 0)
    ∧ ((∃ slot at' m e, s.nlc.progress = .compute slot at' m e) → joins (.readAxles tag) .axles)
    ∧ ((∀ slot at' m e, s.nlc.progress ≠ .compute slot at' m e) →
      ∃ t, exec (.readAxles tag) s = .next t ∧ SameMemory s t ∧ replied 0x17 tag
        (0 :: Axle.all.flatMap fun a =>
          let v := s.asu.axles.get a
          let w := s.wsc.get a
          let b := s.ble.axles.get a
          be 2 v.interval ++ be 2 v.speed ++ be 2 v.previous ++ be 2 (v.decel % 65536).toNat
            ++ [BitVec.ofNat 8 (bit v.fresh + 2 * bit v.valid + 4 * bit w.dumpOpen
                + 8 * bit b.clamped + 16 * bit b.measured.isSome),
              BitVec.ofNat 8 w.slide.code,
              BitVec.ofNat 8 (bit w.nodeCause + 2 * bit w.sensorCause + 4 * bit w.cutout)]
            ++ be 2 w.ceiling ++ be 2 w.dumpOpenTime ++ be 2 w.dumpRest
            ++ [BitVec.ofNat 8 w.reliefFrames, BitVec.ofNat 8 w.recoverFrames]
            ++ be 2 (w.episodeTime / 10) ++ be 2 (w.lockTime / 10) ++ be 2 (s.dbs.eRep.get a)
            ++ be 2 (s.dbs.capacity.get a) ++ be 2 b.command ++ be 2 b.airShare ++ be 2 b.target
            ++ be 2 (b.measured.getD 0)) t)

/-- A snapshot write that completes places the gap record, or else the oldest snapshot of the buffer, as the
ring's newest entry, and a position PENDING for a number that then lies below the ring's oldest entry or in a GAP
of it is MISSING, with which the slot may freeze; a log write the oldest of the log buffer as the log's newest,
with LOG_WRAP where the overwrite count stands at 0. A full collection loses its oldest. What a write places is the buffer's head at
its completion (log 5); with no such write under way neither has an effect (log 2). -/
def Obligations.WritesCompleteInRingAndLog : Prop :=
  ∀ s : State, s.sys.phase = .live →
    let resolves := fun t : State => ∀ k i, s.irc.slots.get k = .capturing i →
      (∀ j, j ≠ k → (s.irc.slots.get j).isCapturing = false) →
      let lost := fun n : Int => (∃ e, t.irc.ring.head? = some e ∧ n < e.first)
        ∨ ∃ a b, RingEntry.gap a b ∈ t.irc.ring ∧ (a : Int) ≤ n ∧ n ≤ b
      ∃ i', i' = { i with positions := i'.positions }
        ∧ (t.irc.slots.get k
          = if .pending ∈ i'.positions then .capturing i' else .frozen false i')
        ∧ i'.positions.length = i.positions.length
        ∧ ∀ (p : Nat) z, i.positions[p]? = some z →
          (z = .pending ∧ lost (i.firstNumber + p) → i'.positions[p]? = some .missing)
          ∧ (¬ (z = .pending ∧ lost (i.firstNumber + p)) → i'.positions[p]? = some z)
    ((∀ x, s.rma.memory ≠ some ⟨.snapshotWrite, x⟩) → exec .snapshotWriteDone s = .next (grant s))
    ∧ ((∀ x, s.rma.memory ≠ some ⟨.logWrite, x⟩) → exec .logWriteDone s = .next (grant s))
    ∧ (∀ x, s.rma.memory = some ⟨.snapshotWrite, x⟩ → ∀ e : RingEntry, ∀ after : Rma,
      ((∃ a b, s.rma.gap = some (a, b) ∧ e = .gap a b ∧ after = { s.rma with gap := none }
          ∧ ∀ l z y, s.irc.ring = l ++ [.gap z y] → a ≠ y + 1)
        ∨ ∃ n rest, s.rma.gap = none ∧ s.rma.capture = n :: rest ∧ e = .snapshot n
          ∧ after = { s.rma with capture := rest }) →
      ∃ t, exec .snapshotWriteDone s = .next t ∧ SameBrakes { s with rma := after } t
        ∧ t.irc.highSnap = e.last ∧ t.irc.ring = (if s.irc.ring.length < s.irc.ringCapacity
          then s.irc.ring else s.irc.ring.drop 1) ++ [e] ∧ resolves t)
    ∧ (∀ x, s.rma.memory = some ⟨.snapshotWrite, x⟩ → ∀ l a b z y,
      s.rma.gap = some (a, b) → s.irc.ring = l ++ [.gap z y] → a = y + 1 →
      ∃ t, exec .snapshotWriteDone s = .next t
        ∧ SameBrakes { s with rma := { s.rma with gap := none } } t
        ∧ t.irc.highSnap = b ∧ t.irc.ring = l ++ [.gap z b] ∧ resolves t)
    ∧ (∀ x, s.rma.memory = some ⟨.logWrite, x⟩ → ∀ e rest, s.rma.logBuf = e :: rest →
      ∃ t, exec .logWriteDone s = .next t ∧ SameBrakes s t ∧ t.irc.highLog = e.seq
        ∧ (s.irc.log.length < 1024 → t.irc.log = s.irc.log ++ [e] ∧ t.rma.logBuf = rest)
        ∧ (1024 ≤ s.irc.log.length → s.irc.lastLog + 16 < 4294967295 →
          t.irc.log = s.irc.log.drop 1 ++ [e]
          ∧ t.irc.overwrites = (s.irc.overwrites + 1) % 1024)
        ∧ (∀ oldest, 1024 ≤ s.irc.log.length → s.irc.overwrites = 0 →
          s.irc.log.head? = some oldest →
          logged .logWrap .absent (some (oldest.seq : Int)) none t))

/-- A copy that completes, whatever its read found, fills the first PENDING position of the CAPTURING slot from
the ring; with the last one filled the slot freezes and tells it. The slot's place takes over the source's
damage mark, and a stale mark of it goes. A double error found on the way marks the source's place and the
slot's, in the directory none, with MEMORY_FAULT where a mark is new; what a failing word reads as is an
operand (log 8). With no copy under way it has no effect (log 2). -/
def Obligations.CopyFillsAPosition : Prop :=
  ∀ (faults : List BlockFault) (asRead : Option Snapshot) (s : State), s.sys.phase = .live →
    ((∀ x, s.rma.memory ≠ some ⟨.copy, x⟩) → exec (.copyDone faults asRead) s = .next (grant s))
    ∧ (RecordInv s → ∀ x k i before after idx n, s.rma.memory = some ⟨.copy, x⟩ →
      s.irc.slots.get k = .capturing i → i.positions = before ++ .pending :: after →
      (∀ p ∈ before, p ≠ .pending) → before.length < 1024 →
      s.irc.ring[idx]? = some (.snapshot n) →
      (n.number : Int) = i.firstNumber + before.length →
      (∀ j e, j < idx → s.irc.ring[j]? = some e → ¬ (e.first ≤ n.number ∧ n.number ≤ e.last)) →
      let src := (s.irc.ringPlace + idx) % s.irc.ringCapacity
      let damaged := src ∈ s.irc.marks.ring
      let found := ∃ f ∈ faults, Config.blockRegion f.block ≠ .directory
      ∃ t, exec (.copyDone faults asRead) s = .next t ∧ SameBrakes s t
        ∧ (∃ j, (t.irc.slots.get k = .capturing j ∨ t.irc.slots.get k = .frozen false j)
          ∧ ∃ m : Snapshot, m.number = n.number ∧ j.positions = before ++ .copied m :: after)
        ∧ (found → src ∈ t.irc.marks.ring ∧ before.length ∈ t.irc.marks.slots.get k)
        ∧ (¬ found → t.irc.marks.ring = s.irc.marks.ring
          ∧ (before.length ∈ t.irc.marks.slots.get k ↔ damaged)
          ∧ ∀ p, p ≠ before.length →
            (p ∈ t.irc.marks.slots.get k ↔ p ∈ s.irc.marks.slots.get k))
        ∧ (∀ f, faults = [f] → Config.blockRegion f.block = .directory ∨ ¬ damaged →
          logged .memoryFault (regionSubject (Config.blockRegion f.block)) (some (f.block : Int))
            (some (f.words.length : Int)) t)
        ∧ (faults = [] →
          let done := { i with positions := before ++ .copied n :: after }
          ((∃ p ∈ after, p = .pending) → t.irc.slots.get k = .capturing done)
          ∧ ((∀ p ∈ after, p ≠ .pending) → t.irc.slots.get k = .frozen false done
            ∧ (missingCount done = 0 → raised .incidentFrozen (.incidentSlot k)
                (some (i.number : Int)) (some (copiedCount done : Int)) s t)
            ∧ (0 < missingCount done → raised .incidentIncomplete (.incidentSlot k)
                (some (i.number : Int)) (some (missingCount done : Int)) s t))))

/-- A read item that completes, whatever its read found, joins the reply of the request at the head of the
readout queue as it stood at its grant, and the request goes on to its next item or is answered OK; the cursor
then stands in its source, for a slot while it holds the incident read (log 44). A double error marks the
item's place and shows as damage; what a failing word reads as is an operand (log 8). In the log the next entry
follows, in the ring and in a slot the next that the stride takes, until the count is reached, the source ends or
the reply is full; the cursor then stands at the item that would follow, or past the last. With no read item
under way the command has no effect (log 2). The number of the reply is 0, or the slot's incident (log 20). -/
def Obligations.ReadItemJoinsTheReply : Prop :=
  ∀ (faults : List BlockFault) (asRead : Option Stored) (s : State), s.sys.phase = .live →
    ((∀ x, s.rma.memory ≠ some ⟨.readItem, x⟩) →
      exec (.readItemDone faults asRead) s = .next (grant s))
    ∧ (∀ until' tag r sv x, s.rma.memory = some ⟨.readItem, until'⟩ → s.rma.reading = some x →
      headRead s.hlp.requests = some (tag, r) → r.service = some sv →
      let kind : Byte := match r.source with | .log => 0x16 | _ => 0x15
      let found := ∃ f ∈ faults, Config.blockRegion f.block ≠ .directory
      let body := match faults, asRead, x.item.body with
        | _ :: _, some (.snapshot y), .snapshot n => .snapshot { y with number := n.number }
        | _ :: _, some (.gap _ l), .gap f _ => .gap f l
        | _ :: _, some (.event y), .event e => .event { y with seq := e.seq }
        | _, _, b => b
      ∃ damaged, (damaged = true ↔ x.damaged = true ∨ found) ∧
      let sv' : Service := { sv with
        taken := sv.taken + 1, bytes := sv.bytes ++ ItemBody.bytes r.mask damaged body }
      ∃ u, exec (.readItemDone faults asRead) s = .next (grant u) ∧ SameBrakes s u
        ∧ u.rma.memory = none ∧ u.rma.reading = none
        ∧ (faults = [] → SameMemory s u)
        ∧ (found → x.item.place < 1024 →
          (r.source = .log → s.irc.lastLog + 4 * faults.length < 4294967296) →
          isMarked r.source x.item.place u.irc.marks = true)
        ∧ (∀ cursor, afterItem r sv' x s.irc = .inr cursor →
          (s.sys.resetAsked = false →
            replied kind tag (0 :: (be 4 sv'.incident ++ be 1 sv'.taken ++ sv'.bytes)) u)
          ∧ u.hlp.requests = setHeadRead none s.hlp.requests
          ∧ (r.source = .ring → u.rma.ringCursor = some cursor.toNat)
          ∧ (r.source = .log → u.rma.logCursor = some cursor.toNat)
          ∧ ∀ k, faults = [] → r.source = .slot k →
            let same := ∃ p i, s.irc.slots.get k = .frozen p i ∧ i.number = sv.incident
            (same → u.rma.slotCursors.get k = some cursor)
            ∧ (¬ same → u.rma.slotCursors = s.rma.slotCursors))
        ∧ (∀ sv'', afterItem r sv' x s.irc = .inl sv'' →
          u.hlp.requests = setHeadRead (some { r with service := some sv'' }) s.hlp.requests
          ∧ ∀ b, s.rma.burst = some b → u.rma.burst = if b.limit ≤ b.served + 1 then none
            else some { b with served := b.served + 1 }))
    ∧ (faults = [] → ∀ (r : ReadReq) (sv : Service) (idx : Nat) (e : LogEntry), r.source = .log →
      s.irc.log[idx]? = some e → (∀ j d, j < idx → s.irc.log[j]? = some d → d.seq ≠ e.seq) →
      sv.next = e.seq →
      let it : Item := ⟨idx, (s.irc.logPlace + idx) % 1024, .event e⟩
      nextItem r sv s.irc = some it
      ∧ ∀ (sv' : Service) (marked : Bool),
        let x : Reading := ⟨it, marked, successor r sv it s.irc⟩
        (r.count ≤ sv'.taken ∨ s.irc.log[idx + 1]? = none →
          afterItem r sv' x s.irc = .inr ((e.seq : Int) + 1))
        ∧ ∀ d, sv'.taken < r.count → s.irc.log[idx + 1]? = some d →
          (sv'.bytes.length ≤ 224 → afterItem r sv' x s.irc = .inl { sv' with next := d.seq })
          ∧ (224 < sv'.bytes.length → afterItem r sv' x s.irc = .inr (d.seq : Int)))
    ∧ (∀ (r : ReadReq) (sv : Service) (idx : Nat) (e : RingEntry), r.source = .ring →
      s.irc.ring[idx]? = some e → (e.first : Int) ≤ sv.next → sv.next ≤ e.last →
      (∀ (j : Nat) d, j < idx → s.irc.ring[j]? = some d →
        ¬ ((d.first : Int) ≤ sv.next ∧ sv.next ≤ d.last)) →
      let it : Item := ⟨idx, (s.irc.ringPlace + idx) % max 1 s.irc.ringCapacity,
        match e with | .snapshot m => .snapshot m | .gap a b => .gap a b⟩
      nextItem r sv s.irc = some it
      ∧ ∀ (sv' : Service) (marked : Bool),
        let after := afterItem r sv' ⟨it, marked, successor r sv it s.irc⟩ s.irc
        (s.irc.ring[idx + r.stride]? = none → after = .inr ((e.last : Int) + 1))
        ∧ ∀ d, s.irc.ring[idx + r.stride]? = some d → d.first ≤ d.last →
          let size := match d with | .snapshot _ => snapshotSize r.mask | .gap _ _ => 10
          let full := 250 < 6 + sv'.bytes.length + size
          (r.count ≤ sv'.taken ∨ full → after = .inr (d.first : Int))
          ∧ (sv'.taken < r.count → ¬ full → after = .inl { sv' with next := d.first }))
    ∧ ∀ (r : ReadReq) (sv : Service) (k : SlotId) (p : Bool) (i : Incident) (idx : Nat) (z : Position),
      r.source = .slot k → s.irc.slots.get k = .frozen p i → i.number = sv.incident →
      (∀ (j : Nat) m, i.positions[j]? = some (.copied m) → 0 ≤ i.firstNumber + j) →
      i.positions[idx]? = some z → sv.next = i.firstNumber + idx →
      let it : Item := ⟨idx, idx, match z with
        | .copied m => .snapshot { m with number := sv.next.toNat }
        | _ => .missing sv.next⟩
      nextItem r sv s.irc = some it
      ∧ ∀ (sv' : Service) (marked : Bool), sv'.incident = i.number →
        let after := afterItem r sv' ⟨it, marked, successor r sv it s.irc⟩ s.irc
        let n : Int := sv.next + r.stride
        (i.positions[idx + r.stride]? = none → after = .inr (sv.next + 1))
        ∧ ∀ y, i.positions[idx + r.stride]? = some y →
          let size := match y with | .copied _ => snapshotSize r.mask | _ => 6
          let full := 250 < 6 + sv'.bytes.length + size
          (r.count ≤ sv'.taken ∨ full → after = .inr n)
          ∧ (sv'.taken < r.count → ¬ full → after = .inl { sv' with next := n })

/-- The scrub and the read timeout. A scrub that completes goes on to the next block, or to the next pass,
with SCRUB_CORRECTED and MEMORY_FAULT as it found (in this order, the model's choice, log 59); the period's end raises SCRUB_LATE once for a pass; a
block that falls due is due; the pass timer is raised to the time that each of the two commands stands for
(log 25). The oldest read whose service has not begun is answered TIMEOUT, for a slot with the number of the
incident it holds (log 20), and a burst left without a read ends. With no scrub and no such read the commands
have no effect (log 2). -/
def Obligations.ScrubAndReadTimeout : Prop :=
  ∀ s : State, s.sys.phase = .live →
    let pos := s.rma.scrubPos
    let period := s.pst.active.recorder.scrubPeriod
    let region := Config.blockRegion pos
    (∀ corrected failing, (∀ x, s.rma.memory ≠ some ⟨.scrub, x⟩) →
      exec (.scrubDone corrected failing) s = .next (grant s))
    ∧ (∀ corrected failing x, s.rma.memory = some ⟨.scrub, x⟩ →
      ∃ t, exec (.scrubDone corrected failing) s = .next t
        ∧ SameBrakes { s with rma := { s.rma with
            scrubPos := if pos < 4095 then pos + 1 else 0
            passTimer := if pos < 4095 then s.rma.passTimer else 0
            lateRaised := if pos < 4095 then s.rma.lateRaised else false } } t
        ∧ (0 < corrected → raised .scrubCorrected (regionSubject region) (some (pos : Int))
            (some (corrected : Int)) s t)
        ∧ (failing ≠ [] →
            let hit := fun (bound p : Nat) => p < bound ∧ ∃ w ∈ failing, p ∈ Config.wordPlaces pos w
            let told := fun x : Subject =>
              logged .memoryFault x (some (pos : Int)) (some (failing.length : Int)) t
            (region = .directory → t.irc.marks.ring = s.irc.marks.ring ∧ told .absent)
            ∧ (region = .ring → (∀ p, hit 2048 p → p ∈ t.irc.marks.ring)
              ∧ ((∃ p, hit 2048 p ∧ p ∉ s.irc.marks.ring) → told .absent))
            ∧ (region = .log → s.irc.lastLog + 16 < 4294967296 →
              (∀ p, hit 1024 p → p ∈ t.irc.marks.log)
              ∧ ((∃ p, hit 1024 p ∧ p ∉ s.irc.marks.log) → told .absent))
            ∧ ∀ k, region = .slot k → (∀ p, hit 1024 p → p ∈ t.irc.marks.slots.get k)
              ∧ ((∃ p, hit 1024 p ∧ p ∉ s.irc.marks.slots.get k) → told (.incidentSlot k))))
    ∧ exec .scrubBlockDue s = .next (grant { s with rma := { s.rma with
        passTimer := max s.rma.passTimer (pos * period * 1000 / 4096) } })
    ∧ (s.rma.lateRaised = true → exec .scrubPeriodExpiry s = .next (grant { s with
        rma := { s.rma with passTimer := max s.rma.passTimer (period * 1000) } }))
    ∧ (s.rma.lateRaised = false → ∃ t, exec .scrubPeriodExpiry s = .next t
        ∧ SameBrakes { s with rma := { s.rma with
            passTimer := max s.rma.passTimer (period * 1000), lateRaised := true } } t
        ∧ raised .scrubLate .absent (some (pos : Int)) (some (period : Int)) s t)
    ∧ ((∀ w ∈ s.hlp.requests, ∀ r, w.body = .read r → r.service.isSome = true) →
      exec .readTimeoutExpiry s = .next (grant s))
    ∧ ∀ before tag r after, s.hlp.requests = before ++ ⟨tag, .read r⟩ :: after →
      r.service = none →
      (∀ w ∈ before, ∀ q, w.body = .read q → q.service.isSome = true) →
      let number := match r.source with
        | .slot k => (match s.irc.slots.get k with
          | .free => 0 | .capturing i => i.number | .frozen _ i => i.number)
        | _ => 0
      ∃ t, exec .readTimeoutExpiry s = .next t ∧ SameMemory s t
        ∧ (s.rma.memory ≠ none → t.hlp.requests = before ++ after
          ∧ ((∀ w ∈ before ++ after, w.body = .axles) → t.rma.burst = none))
        ∧ (s.sys.resetAsked = false → replied (match r.source with | .log => 0x16 | _ => 0x15) tag
            (15 :: (be 4 number ++ [0])) t)

/-! ## Operating modes and resets (10) -/

/-- An accepted START makes the mode RUNNING, clears roll hold and the counts of the silence watchdog, and
starts the link. Under TIMER its first frame is due at once: the commands already waiting come before it, then,
with no time passing, the frame starts (log 36). Else the link waits for the first sync edge. A START is refused
by the first check that fails, and then changes nothing. The link's invariant, in the clause of the frame, holds
in every state a run reaches (StepKeepsLinkInvariant). -/
def Obligations.StartRunsTheLink : Prop :=
  ∀ (tag : Byte) (s : State), Admits s →
    let source := s.pst.active.link.startSource
    (s.pst.linkOnce = true → s.pst.wheelOnce = true →
      (s.mdc.mode = .ready ∨ s.mdc.mode = .stopped) →
      (s.nlc.area s.nlc.inUse).validated = true →
      ∃ t, exec (.start tag) s = .next t ∧ replied 0x03 tag [0] t
        ∧ t.diu = { s.diu with silenceTime := 0, holdTime := 0 }
        ∧ t.hlp.reportDivider = 0 ∧ t.mdc = { s.mdc with mode := .running, rollHold := false }
        ∧ t.pst = s.pst ∧ t.sys = s.sys ∧ t.pending = s.pending
        ∧ SameMemory { s with
            nlc := if source = .timer
              then { s.nlc with
                link := .waiting, awaitFirstEdge := false, nextDue := s.sys.clock }
              else { s.nlc with link := .waiting, awaitFirstEdge := true }
            asu := { s.asu with acquire := true }, mdc := t.mdc, diu := t.diu
            hlp := { s.hlp with reportDivider := 0 } } t
        ∧ (source = .timer →
          step { t with pending := [] } = .next { t with pending := [.frameTimerExpiry] }
          ∧ ∃ u, exec .frameTimerExpiry t = .next u ∧ u.nlc.frameDue = s.sys.clock
            ∧ u.nlc.frameCounter = (s.nlc.frameCounter + 1) % 4294967296
            ∧ (LinkInv s → u.nlc.link = .inFrame)))
    ∧ ((s.pst.linkOnce = false ∨ s.pst.wheelOnce = false) →
      ∃ t, exec (.start tag) s = .next t ∧ SameMemory s t ∧ replied 0x03 tag [10] t)
    ∧ (s.pst.linkOnce = true → s.pst.wheelOnce = true →
        ((s.mdc.mode ≠ .ready ∧ s.mdc.mode ≠ .stopped)
          ∨ (s.nlc.area s.nlc.inUse).validated = false) →
        ∃ t, exec (.start tag) s = .next t ∧ SameMemory s t ∧ replied 0x03 tag [9] t)

/-- STOP within a frame requests the halt; between frames the link halts at once: IDLE, the mode STOPPED, a
pending switch applied with the slot records reset, the pending sets copied to active, freshness gone, the
dynamic brake withdrawn, dumps and shortfall closed, and the PENDING positions of a CAPTURING slot above the last
snapshot number MISSING, with which the slot may freeze. In every mode but RUNNING and UNPARKING STOP is
refused. -/
def Obligations.StopHaltsTheLink : Prop :=
  ∀ (tag : Byte) (s : State), Admits s →
    (s.mdc.mode ≠ .running → s.mdc.mode ≠ .unparking →
      ∃ t, exec (.stop tag) s = .next t ∧ SameMemory s t ∧ replied 0x04 tag [9] t)
    ∧ ((s.mdc.mode = .running ∨ s.mdc.mode = .unparking) → s.nlc.link = .inFrame →
        ∃ t, exec (.stop tag) s = .next t ∧ replied 0x04 tag [2] t
          ∧ SameMemory { s with nlc := { s.nlc with haltRequested := true } } t)
    ∧ ((s.mdc.mode = .running ∨ s.mdc.mode = .unparking) → s.nlc.link ≠ .inFrame →
        ∃ t, exec (.stop tag) s = .next t ∧ replied 0x04 tag [1] t
          ∧ t.mdc = { s.mdc with
              mode := .stopped, parkingTime := 0, rollTime := .fill 0, choice := .frame }
          ∧ t.nlc = { s.nlc with
              link := .idle, awaitFirstEdge := false, startPending := none, haltRequested := false
              progress := .none, inUse := s.nlc.selected
              records := if s.nlc.selected = s.nlc.inUse then s.nlc.records
                else (s.nlc.area s.nlc.selected).slots.map fun _ => ⟨.notRun, none, 0, 0⟩ }
          ∧ t.pst = { s.pst with
              active := s.pst.pendingSets.foldl (fun p x => copySet x s.pst.staging p) s.pst.active
              pendingSets := []
              linkOnce := s.pst.linkOnce || s.pst.pendingSets.contains .link
              wheelOnce := s.pst.wheelOnce || s.pst.pendingSets.contains .wheel }
          ∧ (s.pst.pendingSets ≠ [] → isLatched .configCommit t)
          ∧ (∀ a, (t.asu.axles.get a).fresh = false ∧ (t.asu.axles.get a).continuity = false)
          ∧ (s.mdc.mode = .running → t.ble.shortfall = false
              ∧ (s.ble.shortfall = true → isLatched .shortfallOff t)
              ∧ (∀ a, (t.wsc.get a).slide ≠ .dump)
              ∧ t.dbs.state ≠ .exciting ∧ t.dbs.state ≠ .available ∧ t.dbs.state ≠ .cool)
          ∧ ∀ k i, s.irc.slots.get k = .capturing i →
            (∀ j, j ≠ k → (s.irc.slots.get j).isCapturing = false) →
            ∃ i' : Incident, i'.firstNumber = i.firstNumber
              ∧ (t.irc.slots.get k
                = if .pending ∈ i'.positions then .capturing i' else .frozen false i')
              ∧ ∀ p : Nat, i'.positions[p]? = (i.positions[p]?).map fun z =>
                if z = .pending ∧ (s.irc.lastSnap : Int) < i.firstNumber + p then .missing else z)

/-- PARK at rest in RUNNING, with no halt requested and the latch clear, makes the mode PARKING and leaves
RUNNING: the dynamic brake withdrawn, dumps closed, shortfall cleared, the pressure targets kept. Else it is
refused by the first check that fails, with its reason, and changes nothing. -/
def Obligations.ParkEntersParking : Prop :=
  ∀ (tag : Byte) (s : State), Admits s →
    (s.mdc.mode = .running → s.nlc.haltRequested = false → s.diu.latch = none →
      s.asu.standstill = true → ∃ t, exec (.park tag) s = .next t ∧ replied 0x05 tag [0, 0] t
        ∧ SameBrakes { s with
            mdc := { s.mdc with mode := .parking, parkingTime := 0, parkNotWithin := 6 }
            ble := t.ble, dbs := t.dbs, wsc := t.wsc } t
        ∧ t.ble.shortfall = false
        ∧ (s.ble.shortfall = true →
            logged .shortfallOff .absent none (some (s.ble.sustainTime / 10 : Nat)) t)
        ∧ (∀ a, (t.ble.axles.get a).target = (s.ble.axles.get a).target)
        ∧ (s.dbs.state = .exciting ∨ s.dbs.state = .available ∨ s.dbs.state = .cool →
            t.dbs.state = .rest ∧ ∀ a, (t.ble.axles.get a).command = 0)
        ∧ (∀ a, t.wsc.get a = if (s.wsc.get a).slide = .dump then { s.wsc.get a with
              slide := .relief, dumpOpen := false
              dumpRest := if (s.wsc.get a).dumpOpen then s.pst.active.slide.dumpRest
                else (s.wsc.get a).dumpRest }
            else s.wsc.get a))
    ∧ ∀ payload : List Byte,
      (s.mdc.mode ≠ .running ∧ payload = [9, 1])
      ∨ (s.mdc.mode = .running ∧ s.nlc.haltRequested = true ∧ payload = [9, 2])
      ∨ (s.mdc.mode = .running ∧ s.nlc.haltRequested = false ∧ s.diu.latch.isSome = true
          ∧ payload = [9, 3])
      ∨ (s.mdc.mode = .running ∧ s.nlc.haltRequested = false ∧ s.diu.latch = none
          ∧ s.asu.standstill = false ∧ payload = [11, 4]) →
      ∃ t, exec (.park tag) s = .next t ∧ SameMemory s t ∧ replied 0x05 tag payload t

/-- UNPARK leaves PARKING and PARKED for UNPARKING with the period choice FRAME and every roll time 0, roll
hold kept; elsewhere it is refused. The parking time's limit ends PARKING in PARKED, with PARK_TIMEOUT and
the count of the last test, and PARKED telling the timeout; in every other mode it has no effect. That the limit
is taken at its word, with the parking time raised to it, is the model's choice (log 2). -/
def Obligations.ParkingEnds : Prop :=
  ∀ (tag : Byte) (s : State), Admits s →
    (s.mdc.mode = .parking ∨ s.mdc.mode = .parked → ∃ t, exec (.unpark tag) s = .next t
      ∧ replied 0x06 tag [0] t ∧ SameMemory { s with mdc := { s.mdc with
          mode := .unparking, choice := .frame, rollTime := .fill 0 } } t)
    ∧ (s.mdc.mode ≠ .parking → s.mdc.mode ≠ .parked → ∃ t, exec (.unpark tag) s = .next t
      ∧ replied 0x06 tag [9] t ∧ SameMemory s t)
    ∧ (s.mdc.mode ≠ .parking → exec .parkingTimeExpiry s = .next (grant s))
    ∧ (s.mdc.mode = .parking → ∃ t, exec .parkingTimeExpiry s = .next t
        ∧ SameBrakes { s with mdc := { s.mdc with
            mode := .parked, choice := .park, parkingTime := 10000, rollTime := .fill 0 } } t
        ∧ raised .parkTimeout .absent (some s.mdc.parkNotWithin) none s t
        ∧ logged .parked .absent (some 10000) (some 1) t)

/-- RESET is answered OK and admits nothing more; once its reply has left, the soft reset begins with the
memory free. Supply begins a power-on reset of a part without supply, the reset input a reset of a part that
runs, and the loss of supply ends everything but record memory. A transaction that any of them cuts and that
does not complete leaves record memory as it stood; whether it completes is the command's operand (log 9). A
reset that has begun keeps its cause, and no other command begins one (log 26). Outside a part that runs the
attention output is released. -/
def Obligations.ResetsBegin : Prop :=
  (∀ (tag : Byte) (s : State), Admits s → ∃ t, exec (.reset tag) s = .next t
    ∧ (⟨.resetReply, 7, tag, [0]⟩ : TxRecord) ∈ outbox t.hlp
    ∧ SameMemory { s with sys := { s.sys with resetAsked := true } } t)
  ∧ (∀ s : State, s.sys.phase ≠ .live → attentionOutput s = false)
  ∧ ∀ (completes : Bool) (s : State),
    exec .supplyApplied s = .next (if s.sys.phase = .off
      then { s with sys := { s.sys with phase := .inReset .powerOn } } else s)
    ∧ (s.sys.phase ≠ .live ∨ s.sys.resetReplySent = false →
      exec (.beginSoftReset completes) s = .next s)
    ∧ (s.sys.phase = .live → s.sys.resetReplySent = true →
        ∃ t, exec (.beginSoftReset completes) s = .next t
          ∧ t.sys = { s.sys with phase := .inReset .request } ∧ t.rma.memory = none
          ∧ attentionOutput t = false
          ∧ (completes = false ∨ s.rma.memory = none → t.irc = s.irc))
    ∧ (s.sys.phase ≠ .live → exec (.resetInputAsserted completes) s = .next s)
    ∧ (s.sys.phase = .live → ∃ t, exec (.resetInputAsserted completes) s = .next t
        ∧ t.sys = { s.sys with phase := .inReset .input } ∧ t.rma.memory = none
        ∧ attentionOutput t = false
        ∧ (completes = false ∨ s.rma.memory = none → t.irc = s.irc))
    ∧ ∃ t, exec (.powerLoss completes) s = .next t ∧ t.sys = { s.sys with phase := .off }
        ∧ t.rma.memory = none ∧ (completes = false ∨ s.rma.memory = none → t.irc = s.irc)

/-- The end of a reset: every block at its reset values (those no rule gives are log 28's), the straps read,
and POWER_ON or SOFT_RESET the first entry, being written. On an undamaged directory record memory is kept with
numbers continuing from the highest written, and a slot found CAPTURING is FROZEN with its PENDING positions
MISSING and INCIDENT_INCOMPLETE raised, also where none was PENDING (log 50); on a damaged one record memory is
taken up as empty, without damage marks (log 39), with MEMORY_FAULT without values. The order of these events
against EMERGENCY_ON is an operand (log 10). With the emergency input asserted the latch is then set with cause INPUT. Outside a reset it has
no effect (log 26). -/
def Obligations.ResetEndTakesResetValues : Prop :=
  ∀ (emergency rate1 rate0 damaged first : Bool) (s : State),
    ((∀ c, s.sys.phase ≠ .inReset c) →
      exec (.resetEnd emergency rate1 rate0 damaged first) s = .next s)
    ∧ ∀ c, s.sys.phase = .inReset c →
      let kind : EventKind := match c with | .powerOn => .powerOn | _ => .softReset
      let value : Option Int :=
        match c with | .powerOn => none | .request => some 0 | .input => some 1
      let rate : Rate := match rate1, rate0 with
        | false, false => .r115200 | false, true => .r460800 | true, false => .r921600
        | true, true => .r1843200
      let cut := fun i : Incident => { i with
        positions := i.positions.map fun p => if p = .pending then .missing else p }
      let highLog := if damaged then 0 else s.irc.highLog
      ∃ t, exec (.resetEnd emergency rate1 rate0 damaged first) s = .next t
        ∧ t.sys = ⟨.live, false, false, rate, 0, 0⟩
        ∧ t.ble = .reset ∧ t.dbs = .reset ∧ t.asu = .reset ∧ t.wsc = .fill .reset
        ∧ t.nlc = .reset ∧ t.mdc = .reset
        ∧ t.pst = .reset (if damaged then 1024 else s.irc.ringCapacity)
        ∧ t.pending = s.pending
        ∧ t.rma = { Rma.reset with memory := some ⟨.logWrite, 4⟩, logBuf := t.rma.logBuf }
        ∧ t.hlp = { Hlp.reset with latched := t.hlp.latched } ∧ isLatched kind t
        ∧ t.irc.timeTag = 0
        ∧ (highLog + 16 < 4294967296 → t.rma.logBuf.head?
            = some ⟨highLog + 1, 0, kind, .absent, value, none, false⟩)
        ∧ (damaged = false →
          t.irc.ring = s.irc.ring ∧ t.irc.ringCapacity = s.irc.ringCapacity
          ∧ t.irc.ringPlace = s.irc.ringPlace ∧ t.irc.lastSnap = s.irc.highSnap
          ∧ t.irc.highSnap = s.irc.highSnap ∧ t.irc.highLog = s.irc.highLog
          ∧ t.irc.marks.ring = s.irc.marks.ring ∧ t.irc.marks.slots = s.irc.marks.slots
          ∧ (s.irc.highLog + 16 < 4294967296 → t.irc.log = s.irc.log))
        ∧ (damaged = true → t.irc.ring = [] ∧ t.irc.log = [] ∧ t.irc.ringCapacity = 1024
          ∧ t.irc.lastSnap = 0 ∧ t.irc.marks = ⟨[], [], .fill []⟩
          ∧ logged .memoryFault .absent none none t
          ∧ (emergency = false → t.irc.slots = .fill .free ∧ t.irc.lastIncident = 0
            ∧ t.hlp.latched = kind.bit ||| EventKind.memoryFault.bit))
        ∧ (emergency = false → t.diu = .reset ∧ (∀ k i, t.irc.slots.get k ≠ .capturing i))
        ∧ (emergency = false → damaged = false →
          t.irc.lastIncident = s.irc.lastIncident
          ∧ (∀ k p i, s.irc.slots.get k = .frozen p i → t.irc.slots.get k = .frozen p i)
          ∧ (∀ k, s.irc.slots.get k = .free → t.irc.slots.get k = .free)
          ∧ (∀ k i, s.irc.slots.get k = .capturing i → t.irc.slots.get k = .frozen false (cut i))
          ∧ (∀ k i, s.irc.slots.get k = .capturing i →
            (∀ j, j ≠ k → (s.irc.slots.get j).isCapturing = false) →
            logged .incidentIncomplete (.incidentSlot k) (some (i.number : Int))
              (some (missingCount (cut i) : Int)) t
            ∧ t.hlp.latched = kind.bit ||| EventKind.incidentIncomplete.bit)
          ∧ ((∀ k, (s.irc.slots.get k).isCapturing = false) → t.hlp.latched = kind.bit))
        ∧ (emergency = true →
            t.diu = { Diu.reset with emergInput := true, latch := some .input, dEff := 6000 }
            ∧ logged .emergencyOn .absent (some 1) (some 0) t)

end
end

