-- ==== Sys2Proof/Laws/State.lean ====
section
/-! SUPPORT. One lemma per field for each of the twelve updates of a block. -/

namespace Sys2Proof.Machine

variable (s : State)

variable (fDiu : Diu → Diu)
variable (fBle : Ble → Ble)
variable (fDbs : Dbs → Dbs)
variable (fAsu : Asu → Asu)
variable (fWsc : PerAxle WscAxle → PerAxle WscAxle)
variable (fNlc : Nlc → Nlc)
variable (fPst : Pst → Pst)
variable (fIrc : Irc → Irc)
variable (fRma : Rma → Rma)
variable (fHlp : Hlp → Hlp)
variable (fMdc : Mdc → Mdc)
variable (fSys : Sys → Sys)

@[simp] theorem State.onDiu_pending : (s.onDiu fDiu).pending = s.pending := rfl
@[simp] theorem State.onDiu_sys : (s.onDiu fDiu).sys = s.sys := rfl
@[simp] theorem State.onDiu_diu : (s.onDiu fDiu).diu = fDiu s.diu := rfl
@[simp] theorem State.onDiu_ble : (s.onDiu fDiu).ble = s.ble := rfl
@[simp] theorem State.onDiu_dbs : (s.onDiu fDiu).dbs = s.dbs := rfl
@[simp] theorem State.onDiu_asu : (s.onDiu fDiu).asu = s.asu := rfl
@[simp] theorem State.onDiu_wsc : (s.onDiu fDiu).wsc = s.wsc := rfl
@[simp] theorem State.onDiu_nlc : (s.onDiu fDiu).nlc = s.nlc := rfl
@[simp] theorem State.onDiu_pst : (s.onDiu fDiu).pst = s.pst := rfl
@[simp] theorem State.onDiu_irc : (s.onDiu fDiu).irc = s.irc := rfl
@[simp] theorem State.onDiu_rma : (s.onDiu fDiu).rma = s.rma := rfl
@[simp] theorem State.onDiu_hlp : (s.onDiu fDiu).hlp = s.hlp := rfl
@[simp] theorem State.onDiu_mdc : (s.onDiu fDiu).mdc = s.mdc := rfl

@[simp] theorem State.onBle_pending : (s.onBle fBle).pending = s.pending := rfl
@[simp] theorem State.onBle_sys : (s.onBle fBle).sys = s.sys := rfl
@[simp] theorem State.onBle_diu : (s.onBle fBle).diu = s.diu := rfl
@[simp] theorem State.onBle_ble : (s.onBle fBle).ble = fBle s.ble := rfl
@[simp] theorem State.onBle_dbs : (s.onBle fBle).dbs = s.dbs := rfl
@[simp] theorem State.onBle_asu : (s.onBle fBle).asu = s.asu := rfl
@[simp] theorem State.onBle_wsc : (s.onBle fBle).wsc = s.wsc := rfl
@[simp] theorem State.onBle_nlc : (s.onBle fBle).nlc = s.nlc := rfl
@[simp] theorem State.onBle_pst : (s.onBle fBle).pst = s.pst := rfl
@[simp] theorem State.onBle_irc : (s.onBle fBle).irc = s.irc := rfl
@[simp] theorem State.onBle_rma : (s.onBle fBle).rma = s.rma := rfl
@[simp] theorem State.onBle_hlp : (s.onBle fBle).hlp = s.hlp := rfl
@[simp] theorem State.onBle_mdc : (s.onBle fBle).mdc = s.mdc := rfl

@[simp] theorem State.onDbs_pending : (s.onDbs fDbs).pending = s.pending := rfl
@[simp] theorem State.onDbs_sys : (s.onDbs fDbs).sys = s.sys := rfl
@[simp] theorem State.onDbs_diu : (s.onDbs fDbs).diu = s.diu := rfl
@[simp] theorem State.onDbs_ble : (s.onDbs fDbs).ble = s.ble := rfl
@[simp] theorem State.onDbs_dbs : (s.onDbs fDbs).dbs = fDbs s.dbs := rfl
@[simp] theorem State.onDbs_asu : (s.onDbs fDbs).asu = s.asu := rfl
@[simp] theorem State.onDbs_wsc : (s.onDbs fDbs).wsc = s.wsc := rfl
@[simp] theorem State.onDbs_nlc : (s.onDbs fDbs).nlc = s.nlc := rfl
@[simp] theorem State.onDbs_pst : (s.onDbs fDbs).pst = s.pst := rfl
@[simp] theorem State.onDbs_irc : (s.onDbs fDbs).irc = s.irc := rfl
@[simp] theorem State.onDbs_rma : (s.onDbs fDbs).rma = s.rma := rfl
@[simp] theorem State.onDbs_hlp : (s.onDbs fDbs).hlp = s.hlp := rfl
@[simp] theorem State.onDbs_mdc : (s.onDbs fDbs).mdc = s.mdc := rfl

@[simp] theorem State.onAsu_pending : (s.onAsu fAsu).pending = s.pending := rfl
@[simp] theorem State.onAsu_sys : (s.onAsu fAsu).sys = s.sys := rfl
@[simp] theorem State.onAsu_diu : (s.onAsu fAsu).diu = s.diu := rfl
@[simp] theorem State.onAsu_ble : (s.onAsu fAsu).ble = s.ble := rfl
@[simp] theorem State.onAsu_dbs : (s.onAsu fAsu).dbs = s.dbs := rfl
@[simp] theorem State.onAsu_asu : (s.onAsu fAsu).asu = fAsu s.asu := rfl
@[simp] theorem State.onAsu_wsc : (s.onAsu fAsu).wsc = s.wsc := rfl
@[simp] theorem State.onAsu_nlc : (s.onAsu fAsu).nlc = s.nlc := rfl
@[simp] theorem State.onAsu_pst : (s.onAsu fAsu).pst = s.pst := rfl
@[simp] theorem State.onAsu_irc : (s.onAsu fAsu).irc = s.irc := rfl
@[simp] theorem State.onAsu_rma : (s.onAsu fAsu).rma = s.rma := rfl
@[simp] theorem State.onAsu_hlp : (s.onAsu fAsu).hlp = s.hlp := rfl
@[simp] theorem State.onAsu_mdc : (s.onAsu fAsu).mdc = s.mdc := rfl

@[simp] theorem State.onWsc_pending : (s.onWsc fWsc).pending = s.pending := rfl
@[simp] theorem State.onWsc_sys : (s.onWsc fWsc).sys = s.sys := rfl
@[simp] theorem State.onWsc_diu : (s.onWsc fWsc).diu = s.diu := rfl
@[simp] theorem State.onWsc_ble : (s.onWsc fWsc).ble = s.ble := rfl
@[simp] theorem State.onWsc_dbs : (s.onWsc fWsc).dbs = s.dbs := rfl
@[simp] theorem State.onWsc_asu : (s.onWsc fWsc).asu = s.asu := rfl
@[simp] theorem State.onWsc_wsc : (s.onWsc fWsc).wsc = fWsc s.wsc := rfl
@[simp] theorem State.onWsc_nlc : (s.onWsc fWsc).nlc = s.nlc := rfl
@[simp] theorem State.onWsc_pst : (s.onWsc fWsc).pst = s.pst := rfl
@[simp] theorem State.onWsc_irc : (s.onWsc fWsc).irc = s.irc := rfl
@[simp] theorem State.onWsc_rma : (s.onWsc fWsc).rma = s.rma := rfl
@[simp] theorem State.onWsc_hlp : (s.onWsc fWsc).hlp = s.hlp := rfl
@[simp] theorem State.onWsc_mdc : (s.onWsc fWsc).mdc = s.mdc := rfl

@[simp] theorem State.onNlc_pending : (s.onNlc fNlc).pending = s.pending := rfl
@[simp] theorem State.onNlc_sys : (s.onNlc fNlc).sys = s.sys := rfl
@[simp] theorem State.onNlc_diu : (s.onNlc fNlc).diu = s.diu := rfl
@[simp] theorem State.onNlc_ble : (s.onNlc fNlc).ble = s.ble := rfl
@[simp] theorem State.onNlc_dbs : (s.onNlc fNlc).dbs = s.dbs := rfl
@[simp] theorem State.onNlc_asu : (s.onNlc fNlc).asu = s.asu := rfl
@[simp] theorem State.onNlc_wsc : (s.onNlc fNlc).wsc = s.wsc := rfl
@[simp] theorem State.onNlc_nlc : (s.onNlc fNlc).nlc = fNlc s.nlc := rfl
@[simp] theorem State.onNlc_pst : (s.onNlc fNlc).pst = s.pst := rfl
@[simp] theorem State.onNlc_irc : (s.onNlc fNlc).irc = s.irc := rfl
@[simp] theorem State.onNlc_rma : (s.onNlc fNlc).rma = s.rma := rfl
@[simp] theorem State.onNlc_hlp : (s.onNlc fNlc).hlp = s.hlp := rfl
@[simp] theorem State.onNlc_mdc : (s.onNlc fNlc).mdc = s.mdc := rfl

@[simp] theorem State.onPst_pending : (s.onPst fPst).pending = s.pending := rfl
@[simp] theorem State.onPst_sys : (s.onPst fPst).sys = s.sys := rfl
@[simp] theorem State.onPst_diu : (s.onPst fPst).diu = s.diu := rfl
@[simp] theorem State.onPst_ble : (s.onPst fPst).ble = s.ble := rfl
@[simp] theorem State.onPst_dbs : (s.onPst fPst).dbs = s.dbs := rfl
@[simp] theorem State.onPst_asu : (s.onPst fPst).asu = s.asu := rfl
@[simp] theorem State.onPst_wsc : (s.onPst fPst).wsc = s.wsc := rfl
@[simp] theorem State.onPst_nlc : (s.onPst fPst).nlc = s.nlc := rfl
@[simp] theorem State.onPst_pst : (s.onPst fPst).pst = fPst s.pst := rfl
@[simp] theorem State.onPst_irc : (s.onPst fPst).irc = s.irc := rfl
@[simp] theorem State.onPst_rma : (s.onPst fPst).rma = s.rma := rfl
@[simp] theorem State.onPst_hlp : (s.onPst fPst).hlp = s.hlp := rfl
@[simp] theorem State.onPst_mdc : (s.onPst fPst).mdc = s.mdc := rfl

@[simp] theorem State.onIrc_pending : (s.onIrc fIrc).pending = s.pending := rfl
@[simp] theorem State.onIrc_sys : (s.onIrc fIrc).sys = s.sys := rfl
@[simp] theorem State.onIrc_diu : (s.onIrc fIrc).diu = s.diu := rfl
@[simp] theorem State.onIrc_ble : (s.onIrc fIrc).ble = s.ble := rfl
@[simp] theorem State.onIrc_dbs : (s.onIrc fIrc).dbs = s.dbs := rfl
@[simp] theorem State.onIrc_asu : (s.onIrc fIrc).asu = s.asu := rfl
@[simp] theorem State.onIrc_wsc : (s.onIrc fIrc).wsc = s.wsc := rfl
@[simp] theorem State.onIrc_nlc : (s.onIrc fIrc).nlc = s.nlc := rfl
@[simp] theorem State.onIrc_pst : (s.onIrc fIrc).pst = s.pst := rfl
@[simp] theorem State.onIrc_irc : (s.onIrc fIrc).irc = fIrc s.irc := rfl
@[simp] theorem State.onIrc_rma : (s.onIrc fIrc).rma = s.rma := rfl
@[simp] theorem State.onIrc_hlp : (s.onIrc fIrc).hlp = s.hlp := rfl
@[simp] theorem State.onIrc_mdc : (s.onIrc fIrc).mdc = s.mdc := rfl

@[simp] theorem State.onRma_pending : (s.onRma fRma).pending = s.pending := rfl
@[simp] theorem State.onRma_sys : (s.onRma fRma).sys = s.sys := rfl
@[simp] theorem State.onRma_diu : (s.onRma fRma).diu = s.diu := rfl
@[simp] theorem State.onRma_ble : (s.onRma fRma).ble = s.ble := rfl
@[simp] theorem State.onRma_dbs : (s.onRma fRma).dbs = s.dbs := rfl
@[simp] theorem State.onRma_asu : (s.onRma fRma).asu = s.asu := rfl
@[simp] theorem State.onRma_wsc : (s.onRma fRma).wsc = s.wsc := rfl
@[simp] theorem State.onRma_nlc : (s.onRma fRma).nlc = s.nlc := rfl
@[simp] theorem State.onRma_pst : (s.onRma fRma).pst = s.pst := rfl
@[simp] theorem State.onRma_irc : (s.onRma fRma).irc = s.irc := rfl
@[simp] theorem State.onRma_rma : (s.onRma fRma).rma = fRma s.rma := rfl
@[simp] theorem State.onRma_hlp : (s.onRma fRma).hlp = s.hlp := rfl
@[simp] theorem State.onRma_mdc : (s.onRma fRma).mdc = s.mdc := rfl

@[simp] theorem State.onHlp_pending : (s.onHlp fHlp).pending = s.pending := rfl
@[simp] theorem State.onHlp_sys : (s.onHlp fHlp).sys = s.sys := rfl
@[simp] theorem State.onHlp_diu : (s.onHlp fHlp).diu = s.diu := rfl
@[simp] theorem State.onHlp_ble : (s.onHlp fHlp).ble = s.ble := rfl
@[simp] theorem State.onHlp_dbs : (s.onHlp fHlp).dbs = s.dbs := rfl
@[simp] theorem State.onHlp_asu : (s.onHlp fHlp).asu = s.asu := rfl
@[simp] theorem State.onHlp_wsc : (s.onHlp fHlp).wsc = s.wsc := rfl
@[simp] theorem State.onHlp_nlc : (s.onHlp fHlp).nlc = s.nlc := rfl
@[simp] theorem State.onHlp_pst : (s.onHlp fHlp).pst = s.pst := rfl
@[simp] theorem State.onHlp_irc : (s.onHlp fHlp).irc = s.irc := rfl
@[simp] theorem State.onHlp_rma : (s.onHlp fHlp).rma = s.rma := rfl
@[simp] theorem State.onHlp_hlp : (s.onHlp fHlp).hlp = fHlp s.hlp := rfl
@[simp] theorem State.onHlp_mdc : (s.onHlp fHlp).mdc = s.mdc := rfl

@[simp] theorem State.onMdc_pending : (s.onMdc fMdc).pending = s.pending := rfl
@[simp] theorem State.onMdc_sys : (s.onMdc fMdc).sys = s.sys := rfl
@[simp] theorem State.onMdc_diu : (s.onMdc fMdc).diu = s.diu := rfl
@[simp] theorem State.onMdc_ble : (s.onMdc fMdc).ble = s.ble := rfl
@[simp] theorem State.onMdc_dbs : (s.onMdc fMdc).dbs = s.dbs := rfl
@[simp] theorem State.onMdc_asu : (s.onMdc fMdc).asu = s.asu := rfl
@[simp] theorem State.onMdc_wsc : (s.onMdc fMdc).wsc = s.wsc := rfl
@[simp] theorem State.onMdc_nlc : (s.onMdc fMdc).nlc = s.nlc := rfl
@[simp] theorem State.onMdc_pst : (s.onMdc fMdc).pst = s.pst := rfl
@[simp] theorem State.onMdc_irc : (s.onMdc fMdc).irc = s.irc := rfl
@[simp] theorem State.onMdc_rma : (s.onMdc fMdc).rma = s.rma := rfl
@[simp] theorem State.onMdc_hlp : (s.onMdc fMdc).hlp = s.hlp := rfl
@[simp] theorem State.onMdc_mdc : (s.onMdc fMdc).mdc = fMdc s.mdc := rfl

@[simp] theorem State.onSys_pending : (s.onSys fSys).pending = s.pending := rfl
@[simp] theorem State.onSys_sys : (s.onSys fSys).sys = fSys s.sys := rfl
@[simp] theorem State.onSys_diu : (s.onSys fSys).diu = s.diu := rfl
@[simp] theorem State.onSys_ble : (s.onSys fSys).ble = s.ble := rfl
@[simp] theorem State.onSys_dbs : (s.onSys fSys).dbs = s.dbs := rfl
@[simp] theorem State.onSys_asu : (s.onSys fSys).asu = s.asu := rfl
@[simp] theorem State.onSys_wsc : (s.onSys fSys).wsc = s.wsc := rfl
@[simp] theorem State.onSys_nlc : (s.onSys fSys).nlc = s.nlc := rfl
@[simp] theorem State.onSys_pst : (s.onSys fSys).pst = s.pst := rfl
@[simp] theorem State.onSys_irc : (s.onSys fSys).irc = s.irc := rfl
@[simp] theorem State.onSys_rma : (s.onSys fSys).rma = s.rma := rfl
@[simp] theorem State.onSys_hlp : (s.onSys fSys).hlp = s.hlp := rfl
@[simp] theorem State.onSys_mdc : (s.onSys fSys).mdc = s.mdc := rfl

end Sys2Proof.Machine
end

