-- ==== Sys2Proof/Laws/Frames.lean ====
section
/-! SUPPORT. What the shared operations of the record path can do: they change record memory, its arbiter
and the host link, and nothing else. -/

namespace Sys2Proof.Machine

theorem SameBrakes.refl (s : State) : SameBrakes s s := by constructor <;> rfl

theorem SameBrakes.trans {s t u : State} (h : SameBrakes s t) (k : SameBrakes t u) : SameBrakes s u where
  pending := k.pending.trans h.pending
  sys := k.sys.trans h.sys
  diu := k.diu.trans h.diu
  ble := k.ble.trans h.ble
  dbs := k.dbs.trans h.dbs
  asu := k.asu.trans h.asu
  wsc := k.wsc.trans h.wsc
  nlc := k.nlc.trans h.nlc
  pst := k.pst.trans h.pst
  mdc := k.mdc.trans h.mdc
  assembler := k.assembler.trans h.assembler
  framingErrors := k.framingErrors.trans h.framingErrors
  crcErrors := k.crcErrors.trans h.crcErrors
  overrunErrors := k.overrunErrors.trans h.overrunErrors
  noticeMask := k.noticeMask.trans h.noticeMask
  attentionMask := k.attentionMask.trans h.attentionMask
  reportDivider := k.reportDivider.trans h.reportDivider
  capture := k.capture.trans h.capture
  gap := k.gap.trans h.gap
  scrubPos := k.scrubPos.trans h.scrubPos
  passTimer := k.passTimer.trans h.passTimer
  lateRaised := k.lateRaised.trans h.lateRaised

theorem onIrc_same (f : Irc → Irc) (s : State) : SameBrakes s (s.onIrc f) := by constructor <;> rfl

/-! ## The transmitter: the host link alone -/

theorem startTx_eq (s : State) : startTx s = s.onHlp fun _ => (startTx s).hlp := by
  unfold startTx; split
  · rfl
  · split <;> rfl

theorem startTx_same (s : State) : SameBrakes s (startTx s) := by
  unfold startTx; split
  · exact .refl s
  · split
    · constructor <;> rfl
    · exact .refl s

@[simp] theorem startTx_irc (s : State) : (startTx s).irc = s.irc := by rw [startTx_eq]; rfl

@[simp] theorem startTx_rma (s : State) : (startTx s).rma = s.rma := by rw [startTx_eq]; rfl

theorem placeRecord_same (r : TxRecord) (s : State) : SameBrakes s (placeRecord r s) :=
  (by constructor <;> rfl : SameBrakes s _).trans (startTx_same _)

@[simp] theorem placeRecord_irc (r : TxRecord) (s : State) : (placeRecord r s).irc = s.irc := by
  simp [placeRecord]

@[simp] theorem placeRecord_rma (r : TxRecord) (s : State) : (placeRecord r s).rma = s.rma := by
  simp [placeRecord]

theorem placeReply_same (k t : Byte) (p : List Byte) (s : State) : SameBrakes s (placeReply k t p s) :=
  placeRecord_same _ s

@[simp] theorem placeReply_irc (k t : Byte) (p : List Byte) (s : State) :
    (placeReply k t p s).irc = s.irc := placeRecord_irc _ s

@[simp] theorem placeReply_rma (k t : Byte) (p : List Byte) (s : State) :
    (placeReply k t p s).rma = s.rma := placeRecord_rma _ s

/-- Starting the transmitter keeps the records to be sent. -/
@[simp] theorem outbox_startTx (s : State) : outbox (startTx s).hlp = outbox s.hlp := by
  unfold startTx
  split
  · rfl
  · split
    · rename_i h k
      simp [outbox, h, k]
    · rfl

/-- Placing a record adds it to the records to be sent. -/
@[simp] theorem outbox_placeRecord (r : TxRecord) (s : State) :
    outbox (placeRecord r s).hlp = outbox s.hlp ++ [r] := by
  simp only [placeRecord, outbox_startTx]
  simp [outbox]

theorem replied_placeReply (k t : Byte) (p : List Byte) (s : State) :
    replied k t p (placeReply k t p s) := by
  unfold replied placeReply
  simp

/-! ## Raising an event -/

theorem placeNotice_same (e : LogEntry) (s : State) : SameBrakes s (placeNotice e s) := by
  unfold placeNotice; split
  · exact placeRecord_same _ s
  · constructor <;> rfl

theorem latchEvent_same (e : LogEntry) (s : State) : SameBrakes s (latchEvent e s) := by
  unfold latchEvent; dsimp only; split
  · exact (by constructor <;> rfl : SameBrakes s _).trans (placeNotice_same _ _)
  · constructor <;> rfl

theorem raiseBase_same (k : EventKind) (x : Subject) (v w : Option Int) (s : State) :
    SameBrakes s (raiseBase k x v w s) :=
  (by constructor <;> rfl : SameBrakes s _).trans (latchEvent_same _ _)

theorem freezeIfDone_same (s : State) : SameBrakes s (freezeIfDone s) := by
  unfold freezeIfDone; split
  · split
    · exact .refl s
    · dsimp only; split <;> exact (onIrc_same _ s).trans (raiseBase_same _ _ _ _ _)
  · exact .refl s

theorem cutWindow_same (p : Int → Bool) (s : State) : SameBrakes s (cutWindow p s) := by
  unfold cutWindow; split
  · exact (onIrc_same _ s).trans (freezeIfDone_same _)
  · exact .refl s

theorem discardRecord_same (k : SlotId) (s : State) : SameBrakes s (discardRecord k s) := by
  unfold discardRecord; split
  · exact (by constructor <;> rfl : SameBrakes s _).trans (raiseBase_same _ _ _ _ _)
  · exact .refl s

theorem openIncident_same (k : EventKind) (q t : Nat) (s : State) :
    SameBrakes s (openIncident k q t s) := by
  unfold openIncident; split
  · exact raiseBase_same _ _ _ _ s
  · exact (((discardRecord_same _ s).trans (onIrc_same _ _)).trans
      (raiseBase_same _ _ _ _ _)).trans (freezeIfDone_same _)

theorem takeTrigger_same (k : EventKind) (q t : Nat) (s : State) :
    SameBrakes s (takeTrigger k q t s) := by
  unfold takeTrigger; split
  · exact onIrc_same _ s
  · exact openIncident_same k q t s

/-- Raising an event changes the record path alone. -/
theorem raiseEvent_same (k : EventKind) (x : Subject) (v w : Option Int) (s : State) :
    SameBrakes s (raiseEvent k x v w s) := by
  unfold raiseEvent; dsimp only; split
  · exact (raiseBase_same _ _ _ _ s).trans (takeTrigger_same _ _ _ _)
  · exact raiseBase_same _ _ _ _ s

section
variable (k : EventKind) (x : Subject) (v w : Option Int) (s : State)

@[simp] theorem raiseEvent_pending : (raiseEvent k x v w s).pending = s.pending :=
  (raiseEvent_same k x v w s).pending
@[simp] theorem raiseEvent_sys : (raiseEvent k x v w s).sys = s.sys := (raiseEvent_same k x v w s).sys
@[simp] theorem raiseEvent_diu : (raiseEvent k x v w s).diu = s.diu := (raiseEvent_same k x v w s).diu
@[simp] theorem raiseEvent_ble : (raiseEvent k x v w s).ble = s.ble := (raiseEvent_same k x v w s).ble
@[simp] theorem raiseEvent_dbs : (raiseEvent k x v w s).dbs = s.dbs := (raiseEvent_same k x v w s).dbs
@[simp] theorem raiseEvent_asu : (raiseEvent k x v w s).asu = s.asu := (raiseEvent_same k x v w s).asu
@[simp] theorem raiseEvent_wsc : (raiseEvent k x v w s).wsc = s.wsc := (raiseEvent_same k x v w s).wsc
@[simp] theorem raiseEvent_nlc : (raiseEvent k x v w s).nlc = s.nlc := (raiseEvent_same k x v w s).nlc
@[simp] theorem raiseEvent_pst : (raiseEvent k x v w s).pst = s.pst := (raiseEvent_same k x v w s).pst
@[simp] theorem raiseEvent_mdc : (raiseEvent k x v w s).mdc = s.mdc := (raiseEvent_same k x v w s).mdc

end

/-! ## Service and grants: the arbiter and the host link alone -/

theorem SameMemory.refl (s : State) : SameMemory s s := ⟨.refl s, rfl, rfl, rfl, rfl⟩

theorem SameMemory.trans {s t u : State} (h : SameMemory s t) (k : SameMemory t u) : SameMemory s u :=
  ⟨h.toSameBrakes.trans k.toSameBrakes, k.irc.trans h.irc, k.logBuf.trans h.logBuf,
    k.latched.trans h.latched, k.overflow.trans h.overflow⟩

theorem startTx_sameMemory (s : State) : SameMemory s (startTx s) := by
  unfold startTx; split
  · exact .refl s
  · split
    · exact ⟨by constructor <;> rfl, rfl, rfl, rfl, rfl⟩
    · exact .refl s

theorem placeReply_sameMemory (k t : Byte) (p : List Byte) (s : State) :
    SameMemory s (placeReply k t p s) := by
  unfold placeReply placeRecord
  refine .trans ?_ (startTx_sameMemory _)
  exact ⟨by constructor <;> rfl, rfl, rfl, rfl, rfl⟩

theorem setCursor_sameMemory (src : ReadSource) (n : Int) (s : State) :
    SameMemory s (s.onRma (setCursor src n)) := by
  cases src <;> exact ⟨by constructor <;> rfl, rfl, rfl, rfl, rfl⟩

theorem answerHead_sameMemory (t : Byte) (r : ReadSource) (p : List Byte) (s : State) :
    SameMemory s (answerHead t r p s) := by
  have h : SameMemory s (s.onHlp fun h => { h with requests := setHeadRead none h.requests }) :=
    ⟨by constructor <;> rfl, rfl, rfl, rfl, rfl⟩
  unfold answerHead; dsimp only; split
  · exact h
  · exact h.trans (placeReply_sameMemory _ _ _ _)

theorem goOn_sameMemory (r : ReadReq) (sv : Service) (s : State) : SameMemory s (goOn r sv s) :=
  ⟨by constructor <;> rfl, rfl, rfl, rfl, rfl⟩

theorem startWork_sameMemory (w : MemWork) (time : Nat) (s : State) :
    SameMemory s (startWork w time s) := ⟨by constructor <;> rfl, rfl, rfl, rfl, rfl⟩

theorem setBurst_sameMemory (b : Option Burst) (s : State) :
    SameMemory s (setBurst b s) :=
  ⟨by constructor <;> rfl, rfl, rfl, rfl, rfl⟩

theorem grantItem_sameMemory (r : ReadReq) (sv : Service) (it : Item) (s : State) :
    SameMemory s (grantItem r sv it s) := ⟨by constructor <;> rfl, rfl, rfl, rfl, rfl⟩

theorem serve_sameMemory (n : Nat) (s : State) : SameMemory s (serve n s) := by
  induction n generalizing s with
  | zero => exact setBurst_sameMemory _ s
  | succ n ih =>
    unfold serve; split
    · exact setBurst_sameMemory _ s
    · split
      · refine .trans ?_ ((answerHead_sameMemory _ _ _ _).trans (ih _))
        split
        · exact setCursor_sameMemory _ _ s
        · exact .refl s
      · split
        · exact grantItem_sameMemory _ _ _ s
        · exact (answerHead_sameMemory _ _ _ _).trans (ih _)

theorem endBurst_sameMemory (s : State) : SameMemory s (endBurst s) := by
  unfold endBurst; split
  · split
    · exact setBurst_sameMemory _ s
    · exact .refl s
  · exact .refl s

theorem grantWork_sameMemory (s : State) : SameMemory s (grantWork s) := by
  unfold grantWork
  repeat' split
  all_goals first
    | exact startWork_sameMemory _ _ s
    | exact (setBurst_sameMemory _ s).trans (serve_sameMemory _ _)
    | exact .refl s

theorem serveBurst_sameMemory (s : State) : SameMemory s (serveBurst s) := by
  unfold serveBurst; dsimp only; split
  · exact serve_sameMemory _ s
  · exact (serve_sameMemory _ s).trans (grantWork_sameMemory _)

/-- A grant changes the arbiter and the host link alone. -/
theorem grant_sameMemory (s : State) : SameMemory s (grant s) := by
  unfold grant; dsimp only; split
  · exact .refl s
  · split
    · exact grantWork_sameMemory s
    · split
      · exact (setBurst_sameMemory _ s).trans (grantWork_sameMemory _)
      · exact (setBurst_sameMemory _ s).trans (serveBurst_sameMemory _)

section
variable (s : State)

@[simp] theorem grant_pending : (grant s).pending = s.pending := (grant_sameMemory s).pending
@[simp] theorem grant_sys : (grant s).sys = s.sys := (grant_sameMemory s).sys
@[simp] theorem grant_diu : (grant s).diu = s.diu := (grant_sameMemory s).diu
@[simp] theorem grant_ble : (grant s).ble = s.ble := (grant_sameMemory s).ble
@[simp] theorem grant_dbs : (grant s).dbs = s.dbs := (grant_sameMemory s).dbs
@[simp] theorem grant_asu : (grant s).asu = s.asu := (grant_sameMemory s).asu
@[simp] theorem grant_wsc : (grant s).wsc = s.wsc := (grant_sameMemory s).wsc
@[simp] theorem grant_nlc : (grant s).nlc = s.nlc := (grant_sameMemory s).nlc
@[simp] theorem grant_pst : (grant s).pst = s.pst := (grant_sameMemory s).pst
@[simp] theorem grant_mdc : (grant s).mdc = s.mdc := (grant_sameMemory s).mdc
@[simp] theorem grant_irc : (grant s).irc = s.irc := (grant_sameMemory s).irc

end

/-- With the memory BUSY nothing is granted. -/
theorem grant_busy (s : State) (h : s.rma.memory.isSome = true) : grant s = s := by
  simp [grant, h]

/-- A command on a part that runs. -/
theorem live_next (f : State → State) (s : State) (h : s.sys.phase = .live) :
    live f s = .next (grant (f s)) := by
  simp [live, h]

/-! ## Records to be sent are kept by service -/

/-- The records to be sent grow. -/
def Sends (s t : State) : Prop := ∃ l, outbox t.hlp = outbox s.hlp ++ l

theorem Sends.refl (s : State) : Sends s s := ⟨[], by simp⟩

theorem Sends.trans {s t u : State} (h : Sends s t) (k : Sends t u) : Sends s u := by
  obtain ⟨l, hl⟩ := h
  obtain ⟨m, hm⟩ := k
  exact ⟨l ++ m, by rw [hm, hl, List.append_assoc]⟩

theorem Sends.of_eq {s t : State} (h : t.hlp = s.hlp) : Sends s t := ⟨[], by simp [h]⟩

theorem Sends.of_outbox {s t : State} (h : outbox t.hlp = outbox s.hlp) : Sends s t := ⟨[], by simp [h]⟩

theorem Sends.replied {k t : Byte} {p : List Byte} {s u : State} (h : Sends s u)
    (r : replied k t p s) : replied k t p u := by
  obtain ⟨l, hl⟩ := h
  unfold Machine.replied
  rw [hl]
  exact List.mem_append_left l r

theorem placeRecord_sends (r : TxRecord) (s : State) : Sends s (placeRecord r s) :=
  ⟨[r], outbox_placeRecord r s⟩

theorem answerHead_sends (t : Byte) (r : ReadSource) (p : List Byte) (s : State) :
    Sends s (answerHead t r p s) := by
  have h : Sends s (s.onHlp fun h => { h with requests := setHeadRead none h.requests }) :=
    Sends.of_outbox rfl
  unfold answerHead; dsimp only; split
  · exact h
  · exact h.trans (placeRecord_sends _ _)

theorem setBurst_sends (b : Option Burst) (s : State) : Sends s (setBurst b s) := .of_eq rfl

theorem serve_sends (n : Nat) (s : State) : Sends s (serve n s) := by
  induction n generalizing s with
  | zero => exact .of_eq rfl
  | succ n ih =>
    unfold serve; split
    · exact .of_eq rfl
    · split
      · refine .trans ?_ ((answerHead_sends _ _ _ _).trans (ih _))
        split
        · exact .of_eq rfl
        · exact .refl s
      · split
        · exact Sends.of_outbox rfl
        · exact (answerHead_sends _ _ _ _).trans (ih _)

theorem grantWork_sends (s : State) : Sends s (grantWork s) := by
  unfold grantWork
  repeat' split
  all_goals first
    | exact .of_eq rfl
    | exact (setBurst_sends _ s).trans (serve_sends _ _)

theorem serveBurst_sends (s : State) : Sends s (serveBurst s) := by
  unfold serveBurst; dsimp only; split
  · exact serve_sends _ s
  · exact (serve_sends _ s).trans (grantWork_sends _)

/-- A grant keeps the records to be sent. -/
theorem grant_sends (s : State) : Sends s (grant s) := by
  unfold grant; dsimp only; split
  · exact .refl s
  · split
    · exact grantWork_sends s
    · split
      · exact (setBurst_sends _ s).trans (grantWork_sends _)
      · exact (setBurst_sends _ s).trans (serveBurst_sends _)

/-! ## Requests -/

/-- An admitted request is executed. -/
theorem request_admitted {s : State} (h : Admits s) (kind tag : Byte) (body : State → State × Answer) :
    request kind tag true true body s = execute kind tag body s := by
  obtain ⟨_, h2, h3, h4⟩ := h
  simp [request, admission, h2, Nat.not_le.mpr h3, Nat.not_le.mpr h4]

/-- A request whose body answers at once: the body's state with the reply placed. -/
theorem execute_reply {kind tag : Byte} {body : State → State × Answer} {s t : State} {p : List Byte}
    (h : body s = (t, .reply p)) : execute kind tag body s = placeReply kind tag p t := by
  simp [execute, h]

/-- An admitted request that is answered at once completes; its reply is among the records to be sent,
and beside the arbiter and the host link the part stands as the body left it. -/
theorem request_completes {s u : State} (h : Admits s) {kind tag : Byte}
    {body : State → State × Answer} {p : List Byte} (hb : body s = (u, .reply p)) :
    ∃ t, live (request kind tag true true body) s = .next t ∧ replied kind tag p t
      ∧ SameMemory u t := by
  refine ⟨_, live_next _ s h.1, ?_, ?_⟩
  · rw [request_admitted h, execute_reply hb]
    exact (grant_sends _).replied (replied_placeReply _ _ _ _)
  · rw [request_admitted h, execute_reply hb]
    exact (placeReply_sameMemory _ _ _ _).trans (grant_sameMemory _)

/-! ## The frame start that START makes due, and the mode for the snapshot -/

theorem startDue_iff (s : State) : startDue s = true ↔ s.nlc.link = .waiting
    ∧ s.nlc.awaitFirstEdge = false ∧ s.pst.active.link.startSource ≠ .sync
    ∧ s.nlc.nextDue ≤ s.sys.clock := by
  cases h : s.nlc.link <;> simp [startDue, timerRuns, h, and_assoc]

theorem tick_of_startDue {s : State} (hl : s.sys.phase = .live) (h : startDue s = true) :
    tick s = { s with pending := [.frameTimerExpiry] } := by simp [tick, hl, h]

theorem startLink_eq (s : State) : startLink s = s.onNlc fun _ => (startLink s).nlc := by
  unfold startLink; split <;> rfl

theorem startLink_due {s : State} (h : s.pst.active.link.startSource = .timer) :
    startDue (startLink s) = true := by simp [startDue_iff, startLink, h]

theorem computeMdc_eq (s : State) : computeMdc s = (mdcTests s).onMdc fun _ => (computeMdc s).mdc := rfl

@[simp] theorem computeMdc_workMode (s : State) :
    (computeMdc s).mdc.workMode = (computeMdc s).mdc.mode := rfl

@[simp] theorem snapshotOf_mode (n : Nat) (s : State) : (snapshotOf n s).mode = s.mdc.workMode := rfl

/-! ## The mark of a latch cleared in RUNNING (R34) -/

theorem markReleased_eq (s : State) : markReleased s
    = s.onBle fun b => { b with released := b.released || s.mdc.mode == .running } := by
  unfold markReleased
  split
  · rename_i h; simp [State.onBle, h]
  · rename_i h
    have : (s.mdc.mode == .running) = false := beq_false_of_ne h
    rw [this]; simp [State.onBle]

@[simp] theorem computeBle_released (s : State) : (computeBle s).ble.released = false := rfl

theorem blendedDemand_of_released {s : State} (h : s.ble.released = true) : blendedDemand s = 0 := by
  simp [blendedDemand, h]

theorem blendedDemand_of_not_released {s : State} (h : s.ble.released = false) :
    blendedDemand s = s.diu.dEff := by simp [blendedDemand, h]

end Sys2Proof.Machine
end

