-- ==== Sys2Proof/Laws/Events.lean ====
section
/-! SUPPORT. What becomes of a raised event within one command: its entry stays in the log buffer and
its kind stays latched, whatever few events the command raises after it. -/

namespace Sys2Proof.Machine

/-- The entry stands in the log buffer with at most `n` entries behind it. -/
def Kept (n : Nat) (e : LogEntry) (t : State) : Prop :=
  ∃ pre post, t.rma.logBuf = pre ++ e :: post ∧ post.length ≤ n

/-- At most `n` entries joined the log buffer on the way, and what was latched is latched. -/
structure Later (n : Nat) (s t : State) : Prop where
  kept : ∀ m e, m + n ≤ 14 → Kept m e s → Kept (m + n) e t
  latched : ∀ k, isLatched k s → isLatched k t

theorem Kept.mono {n m : Nat} {e : LogEntry} {t : State} (h : n ≤ m) : Kept n e t → Kept m e t :=
  fun ⟨a, b, x, y⟩ => ⟨a, b, x, Nat.le_trans y h⟩

theorem Kept.mem {n : Nat} {e : LogEntry} {t : State} : Kept n e t → e ∈ t.rma.logBuf :=
  fun ⟨a, b, x, _⟩ => by rw [x]; simp

theorem Later.of_eq {s t : State} (hl : t.rma.logBuf = s.rma.logBuf)
    (hk : t.hlp.latched = s.hlp.latched) : Later 0 s t :=
  ⟨fun _ _ _ ⟨a, b, x, y⟩ => ⟨a, b, hl.trans x, y⟩, fun k h => by rw [isLatched, hk]; exact h⟩

theorem Later.refl (s : State) : Later 0 s s := .of_eq rfl rfl

theorem onIrc_later (f : Irc → Irc) (s : State) : Later 0 s (s.onIrc f) := .of_eq rfl rfl

/-- An update of the arbiter that keeps the log buffer. -/
theorem onRma_later (f : Rma → Rma) (s : State) (h : (f s.rma).logBuf = s.rma.logBuf) :
    Later 0 s (s.onRma f) := .of_eq h rfl

/-- An update of the host link that keeps the latched set. -/
theorem onHlp_later (f : Hlp → Hlp) (s : State) (h : (f s.hlp).latched = s.hlp.latched) :
    Later 0 s (s.onHlp f) := .of_eq rfl h

theorem Later.trans {n m : Nat} {s t u : State} (h : Later n s t) (k : Later m t u) :
    Later (n + m) s u :=
  ⟨fun i e hi hk => by
      have := k.kept (i + n) e (by omega) (h.kept i e (by omega) hk)
      rwa [Nat.add_assoc] at this,
    fun x hx => k.latched x (h.latched x hx)⟩

theorem Later.mono {n m : Nat} {s t : State} (h : Later n s t) (hm : n ≤ m) : Later m s t :=
  ⟨fun i e hi hk => (h.kept i e (by omega) hk).mono (by omega), h.latched⟩

/-- An entry that joins a log buffer keeps the entries of the last fifteen. -/
theorem join_kept {n : Nat} {e x : LogEntry} {l : List LogEntry} (hn : n < 14)
    (h : ∃ pre post, l = pre ++ e :: post ∧ post.length ≤ n) :
    ∃ pre post, joinLogBuffer x l = pre ++ e :: post ∧ post.length ≤ n + 1 := by
  obtain ⟨pre, post, rfl, hp⟩ := h
  unfold joinLogBuffer
  split
  · exact ⟨pre, post ++ [x], by simp, by simp; omega⟩
  · rename_i hl
    match pre with
    | [] => simp at hl; omega
    | [_] => simp at hl; omega
    | a :: b :: pre =>
      exact ⟨{ b with gapMark := true } :: pre, post ++ [x], by simp [markOldest], by simp; omega⟩

theorem startTx_later (s : State) : Later 0 s (startTx s) := by
  refine .of_eq (by simp) ?_
  unfold startTx; split
  · rfl
  · split <;> rfl

theorem placeRecord_later (r : TxRecord) (s : State) : Later 0 s (placeRecord r s) :=
  (onHlp_later _ s rfl).trans (startTx_later _)

theorem placeReply_later (k t : Byte) (p : List Byte) (s : State) : Later 0 s (placeReply k t p s) :=
  placeRecord_later _ s

theorem placeNotice_later (e : LogEntry) (s : State) : Later 0 s (placeNotice e s) := by
  unfold placeNotice; split
  · exact placeRecord_later _ s
  · exact .of_eq rfl rfl

theorem latch_later (k : EventKind) (s : State) :
    Later 0 s (s.onHlp fun h => { h with latched := h.latched ||| k.bit }) :=
  ⟨fun _ _ _ h => h, fun x h => by
    simp only [isLatched, EventKind.mem, State.onHlp_hlp, BitVec.getLsbD_or, Bool.or_eq_true] at h ⊢
    exact .inl h⟩

theorem latchEvent_later (e : LogEntry) (s : State) : Later 0 s (latchEvent e s) := by
  unfold latchEvent; dsimp only; split
  · exact (latch_later _ s).trans (placeNotice_later _ _)
  · exact latch_later _ s

theorem mem_bit (k : EventKind) (m : KindSet) : k.mem (m ||| k.bit) = true := by
  simp only [EventKind.mem, EventKind.bit, BitVec.getLsbD_or]
  have : (1#64 <<< k.code).getLsbD k.code = true := by cases k <;> rfl
  simp [this]

theorem latchEvent_latches (e : LogEntry) (s : State) : isLatched e.kind (latchEvent e s) := by
  have h : isLatched e.kind (s.onHlp fun h => { h with latched := h.latched ||| e.kind.bit }) :=
    mem_bit e.kind s.hlp.latched
  unfold latchEvent; dsimp only; split
  · exact (placeNotice_later _ _).latched _ h
  · exact h

theorem join_later (e : LogEntry) (c : Irc) (s : State) :
    Later 1 s ((s.onIrc fun _ => c).onRma fun m => { m with logBuf := joinLogBuffer e m.logBuf }) :=
  ⟨fun _ _ hm h => join_kept (by omega) h, fun _ h => h⟩

theorem raiseBase_later (k : EventKind) (x : Subject) (v w : Option Int) (s : State) :
    Later 1 s (raiseBase k x v w s) :=
  (join_later _ _ s).trans (latchEvent_later _ _)

theorem freezeIfDone_later (s : State) : Later 1 s (freezeIfDone s) := by
  unfold freezeIfDone; split
  · split
    · exact (Later.refl s).mono (Nat.zero_le _)
    · dsimp only; split <;> exact (onIrc_later _ s).trans (raiseBase_later _ _ _ _ _)
  · exact (Later.refl s).mono (Nat.zero_le _)

theorem cutWindow_later (p : Int → Bool) (s : State) : Later 1 s (cutWindow p s) := by
  unfold cutWindow; split
  · exact (onIrc_later _ s).trans (freezeIfDone_later _)
  · exact (Later.refl s).mono (Nat.zero_le _)

theorem discardRecord_later (k : SlotId) (s : State) : Later 1 s (discardRecord k s) := by
  unfold discardRecord; split
  · exact ((onIrc_later _ s).trans (onRma_later _ _ rfl)).trans (raiseBase_later _ _ _ _ _)
  · exact (Later.refl s).mono (Nat.zero_le _)

theorem openIncident_later (k : EventKind) (q t : Nat) (s : State) :
    Later 3 s (openIncident k q t s) := by
  unfold openIncident; split
  · exact (raiseBase_later _ _ _ _ s).mono (by decide)
  · exact (((discardRecord_later _ s).trans (onIrc_later _ _)).trans
      (raiseBase_later _ _ _ _ _)).trans (freezeIfDone_later _)

theorem takeTrigger_later (k : EventKind) (q t : Nat) (s : State) : Later 3 s (takeTrigger k q t s) := by
  unfold takeTrigger; split
  · exact (onIrc_later _ s).mono (Nat.zero_le _)
  · exact openIncident_later k q t s

/-- An event with its trigger adds at most four entries. -/
theorem raiseEvent_later (k : EventKind) (x : Subject) (v w : Option Int) (s : State) :
    Later 4 s (raiseEvent k x v w s) := by
  unfold raiseEvent; dsimp only; split
  · exact (raiseBase_later _ _ _ _ s).trans (takeTrigger_later _ _ _ _)
  · exact (raiseBase_later _ _ _ _ s).mono (by decide)

/-- The entry of a raised event, with the few that its trigger brings behind it. -/
theorem raiseEvent_kept (k : EventKind) (x : Subject) (v w : Option Int) (s : State) :
    Kept 3 (nextEntry k x v w s) (raiseEvent k x v w s) := by
  have h : Kept 0 (nextEntry k x v w s) (raiseBase k x v w s) := by
    have ht : (assignLog s.irc).timeTag = s.irc.timeTag := by
      unfold assignLog emptyLog; split <;> rfl
    refine (latchEvent_later _ _).kept 0 _ (by omega) ?_
    simp only [Kept, State.onRma_rma, State.onIrc_rma, joinLogBuffer]
    by_cases hl : s.rma.logBuf.length < 16
    · simp only [hl, if_true]
      exact ⟨s.rma.logBuf, [], by simp [nextEntry, ht], by simp⟩
    · match hb : s.rma.logBuf with
      | [] => simp [hb] at hl
      | [_] => simp [hb] at hl
      | a :: b :: rest =>
        rw [if_neg (by simpa [hb] using hl)]
        exact ⟨{ b with gapMark := true } :: rest, [], by simp [markOldest, nextEntry, ht], by simp⟩
  unfold raiseEvent; dsimp only; split
  · exact (takeTrigger_later _ _ _ _).kept 0 _ (by omega) h
  · exact h.mono (by omega)

theorem raiseEvent_latches (k : EventKind) (x : Subject) (v w : Option Int) (s : State) :
    isLatched k (raiseEvent k x v w s) := by
  have h : isLatched k (raiseBase k x v w s) := latchEvent_latches _ _
  unfold raiseEvent; dsimp only; split
  · exact (takeTrigger_later _ _ _ _).latched _ h
  · exact h

/-! ## Service and grants -/

theorem answerHead_later (t : Byte) (r : ReadSource) (p : List Byte) (s : State) :
    Later 0 s (answerHead t r p s) := by
  unfold answerHead; dsimp only; split
  · exact .of_eq rfl rfl
  · exact (onHlp_later _ s rfl).trans (placeReply_later _ _ _ _)

theorem setBurst_later (b : Option Burst) (s : State) : Later 0 s (setBurst b s) := .of_eq rfl rfl

theorem serve_later (n : Nat) (s : State) : Later 0 s (serve n s) := by
  induction n generalizing s with
  | zero => exact .of_eq rfl rfl
  | succ n ih =>
    unfold serve; split
    · exact .of_eq rfl rfl
    · split
      · refine .trans ?_ ((answerHead_later _ _ _ _).trans (ih _))
        split
        · refine onRma_later _ s ?_
          unfold setCursor; split <;> rfl
        · exact .refl s
      · split
        · exact .of_eq rfl rfl
        · exact (answerHead_later _ _ _ _).trans (ih _)

theorem grantWork_later (s : State) : Later 0 s (grantWork s) := by
  unfold grantWork
  repeat' split
  all_goals first
    | exact .of_eq rfl rfl
    | exact (setBurst_later _ s).trans (serve_later _ _)

theorem serveBurst_later (s : State) : Later 0 s (serveBurst s) := by
  unfold serveBurst; dsimp only; split
  · exact serve_later _ s
  · exact (serve_later _ s).trans (grantWork_later _)

/-- A grant writes no log entry yet and clears nothing latched. -/
theorem grant_later (s : State) : Later 0 s (grant s) := by
  unfold grant; dsimp only; split
  · exact .refl s
  · split
    · exact grantWork_later s
    · split
      · exact (setBurst_later _ s).trans (grantWork_later _)
      · exact (setBurst_later _ s).trans (serveBurst_later _)

/-- The event raised at `s` is seen in every state that follows with few further entries. -/
theorem raised_of_later {k : EventKind} {x : Subject} {v w : Option Int} {n : Nat} {s t : State}
    (hn : n ≤ 11) (h : Later n (raiseEvent k x v w s) t) : raised k x v w s t :=
  ⟨(h.kept 3 _ (by omega) (raiseEvent_kept k x v w s)).mem,
    h.latched _ (raiseEvent_latches k x v w s)⟩

theorem raised_congr {k : EventKind} {x : Subject} {v w : Option Int} {s s' t : State}
    (h : s'.irc = s.irc) : raised k x v w s' t → raised k x v w s t := by
  simp [raised, nextEntry, h]

theorem raised.logged {k : EventKind} {x : Subject} {v w : Option Int} {s t : State}
    (h : raised k x v w s t) : logged k x v w t :=
  ⟨⟨_, h.1, rfl, rfl, rfl, rfl⟩, h.2⟩

end Sys2Proof.Machine
end

