-- ==== Sys2Proof/Laws/PerInstr.lean ====
section
/-! SUPPORT. What holds of every command as syntax: no word of the table spells it, since no row of
spec/opcode_table.json gives bits. -/

namespace Sys2Proof.Laws.NoWord

/-- No word, of whatever length, is read as this command. -/
def Statement (i : Instr) : Prop := ∀ nbits w, decodeTableWord nbits w ≠ some i

theorem demand (tag : Byte) (dReq i : BitVec 16) (dbEnable emergency : Bool) : Statement (.demand tag dReq i dbEnable emergency) := nofun
theorem emergencyReset (tag : Byte) : Statement (.emergencyReset tag) := nofun
theorem start (tag : Byte) : Statement (.start tag) := nofun
theorem stop (tag : Byte) : Statement (.stop tag) := nofun
theorem park (tag : Byte) : Statement (.park tag) := nofun
theorem unpark (tag : Byte) : Statement (.unpark tag) := nofun
theorem reset (tag : Byte) : Statement (.reset tag) := nofun
theorem paramWrite (tag set first : Byte) (values : List Word64) : Statement (.paramWrite tag set first values) := nofun
theorem paramRead (tag set copy first count : Byte) : Statement (.paramRead tag set copy first count) := nofun
theorem paramCommit (tag : Byte) (sets : List Byte) : Statement (.paramCommit tag sets) := nofun
theorem schedWrite (tag area first : Byte) (descriptors : List Word64) : Statement (.schedWrite tag area first descriptors) := nofun
theorem schedRead (tag area first count : Byte) : Statement (.schedRead tag area first count) := nofun
theorem scheduleSelect (tag area : Byte) : Statement (.scheduleSelect tag area) := nofun
theorem axleCutout (tag axle onOff : Byte) : Statement (.axleCutout tag axle onOff) := nofun
theorem mark (tag : Byte) (value : BitVec 16) : Statement (.mark tag value) := nofun
theorem incidentList (tag slot : Byte) : Statement (.incidentList tag slot) := nofun
theorem protect (tag slot : Byte) : Statement (.protect tag slot) := nofun
theorem release (tag slot : Byte) : Statement (.release tag slot) := nofun
theorem logClear (tag : Byte) : Statement (.logClear tag) := nofun
theorem ringClear (tag : Byte) : Statement (.ringClear tag) := nofun
theorem readSnapshots (tag source cont : Byte) (first : BitVec 32) (countStride mask : Byte) : Statement (.readSnapshots tag source cont first countStride mask) := nofun
theorem readEvents (tag cont : Byte) (first : BitVec 32) (count : Byte) : Statement (.readEvents tag cont first count) := nofun
theorem readAxles (tag : Byte) : Statement (.readAxles tag) := nofun
theorem statusRead (tag : Byte) : Statement (.statusRead tag) := nofun
theorem noticeMask (tag : Byte) (notice attention : KindSet) : Statement (.noticeMask tag notice attention) := nofun
theorem hostRecordReceived (kind tag : Byte) (payload : List Byte) : Statement (.hostRecordReceived kind tag payload) := nofun
theorem hostByteGapTimeout : Statement .hostByteGapTimeout := nofun
theorem hostRecordSent : Statement .hostRecordSent := nofun
theorem beginSoftReset (completes : Bool) : Statement (.beginSoftReset completes) := nofun
theorem supplyApplied : Statement .supplyApplied := nofun
theorem resetInputAsserted (completes : Bool) : Statement (.resetInputAsserted completes) := nofun
theorem resetEnd (emergency rate1 rate0 directoryDamaged emergencyFirst : Bool) : Statement (.resetEnd emergency rate1 rate0 directoryDamaged emergencyFirst) := nofun
theorem emergencyInputRise : Statement .emergencyInputRise := nofun
theorem emergencyInputFall : Statement .emergencyInputFall := nofun
theorem syncRisingEdge : Statement .syncRisingEdge := nofun
theorem frameTimerExpiry : Statement .frameTimerExpiry := nofun
theorem slotIntervalExpiry : Statement .slotIntervalExpiry := nofun
theorem nodeRequestSent : Statement .nodeRequestSent := nofun
theorem echoMismatch : Statement .echoMismatch := nofun
theorem nodeReplyStart (line : Line) : Statement (.nodeReplyStart line) := nofun
theorem nodeRecordReceived (line : Line) (bytes : List Byte) : Statement (.nodeRecordReceived line bytes) := nofun
theorem nodeReplyGapExpiry : Statement .nodeReplyGapExpiry := nofun
theorem responseTimeoutExpiry : Statement .responseTimeoutExpiry := nofun
theorem computeComplete : Statement .computeComplete := nofun
theorem demandTimeoutExpiry : Statement .demandTimeoutExpiry := nofun
theorem silentHoldExpiry : Statement .silentHoldExpiry := nofun
theorem exciteTimeExpiry : Statement .exciteTimeExpiry := nofun
theorem restTimeExpiry : Statement .restTimeExpiry := nofun
theorem dumpLimitExpiry (axle : Axle) : Statement (.dumpLimitExpiry axle) := nofun
theorem dumpRestExpiry (axle : Axle) : Statement (.dumpRestExpiry axle) := nofun
theorem parkingTimeExpiry : Statement .parkingTimeExpiry := nofun
theorem readTimeoutExpiry : Statement .readTimeoutExpiry := nofun
theorem scrubBlockDue : Statement .scrubBlockDue := nofun
theorem scrubPeriodExpiry : Statement .scrubPeriodExpiry := nofun
theorem timeTagWrap : Statement .timeTagWrap := nofun
theorem snapshotWriteDone : Statement .snapshotWriteDone := nofun
theorem logWriteDone : Statement .logWriteDone := nofun
theorem copyDone (faults : List BlockFault) (asRead : Option Snapshot) : Statement (.copyDone faults asRead) := nofun
theorem scrubDone (corrected : Nat) (failing : List Nat) : Statement (.scrubDone corrected failing) := nofun
theorem readItemDone (faults : List BlockFault) (asRead : Option Stored) : Statement (.readItemDone faults asRead) := nofun
theorem hostByteReceived (byte : Byte) (stopBit : Bool) : Statement (.hostByteReceived byte stopBit) := nofun
theorem powerLoss (completes : Bool) : Statement (.powerLoss completes) := nofun

end Sys2Proof.Laws.NoWord
end

