-- ==== Sys2Proof/WellFormed.lean ====
section
/-! DEFINITION. Which operands a command can have: list lengths of R195, block and word numbers of
R152. -/

namespace Sys2Proof

/-- The double-error findings of one read name blocks and words that exist (R152), and contents as
read are told only where a word failed (R157). -/
def faultsOk (faults : List BlockFault) (asRead : Bool) : Bool :=
  faults.all (fun f => f.block < 4096 && !f.words.isEmpty && f.words.all (· < 16) && f.words.Nodup)
    && (!asRead || !faults.isEmpty)

/-- The operands of a command are ones its row can have. -/
def Instr.wellFormed : Instr → Bool
  | .demand .. => true
  | .emergencyReset .. => true
  | .start .. => true
  | .stop .. => true
  | .park .. => true
  | .unpark .. => true
  | .reset .. => true
  | .paramWrite _ _ _ values => 1 ≤ values.length && values.length ≤ 31
  | .paramRead .. => true
  | .paramCommit _ sets => 1 ≤ sets.length && sets.length ≤ 6
  | .schedWrite _ _ _ descriptors => 1 ≤ descriptors.length && descriptors.length ≤ 31
  | .schedRead .. => true
  | .scheduleSelect .. => true
  | .axleCutout .. => true
  | .mark .. => true
  | .incidentList .. => true
  | .protect .. => true
  | .release .. => true
  | .logClear .. => true
  | .ringClear .. => true
  | .readSnapshots .. => true
  | .readEvents .. => true
  | .readAxles .. => true
  | .statusRead .. => true
  | .noticeMask .. => true
  | .hostRecordReceived _ _ payload => payload.length ≤ 250
  | .hostByteGapTimeout => true
  | .hostRecordSent => true
  | .beginSoftReset .. => true
  | .supplyApplied => true
  | .resetInputAsserted .. => true
  | .resetEnd .. => true
  | .emergencyInputRise => true
  | .emergencyInputFall => true
  | .syncRisingEdge => true
  | .frameTimerExpiry => true
  | .slotIntervalExpiry => true
  | .nodeRequestSent => true
  | .echoMismatch => true
  | .nodeReplyStart .. => true
  | .nodeRecordReceived _ bytes => 1 ≤ bytes.length && bytes.length ≤ 261
  | .nodeReplyGapExpiry => true
  | .responseTimeoutExpiry => true
  | .computeComplete => true
  | .demandTimeoutExpiry => true
  | .silentHoldExpiry => true
  | .exciteTimeExpiry => true
  | .restTimeExpiry => true
  | .dumpLimitExpiry .. => true
  | .dumpRestExpiry .. => true
  | .parkingTimeExpiry => true
  | .readTimeoutExpiry => true
  | .scrubBlockDue => true
  | .scrubPeriodExpiry => true
  | .timeTagWrap => true
  | .snapshotWriteDone => true
  | .logWriteDone => true
  | .copyDone faults asRead => faultsOk faults asRead.isSome
  | .scrubDone corrected failing =>
    corrected + failing.length ≤ 16 && failing.all (· < 16) && failing.Nodup
  | .readItemDone faults asRead => faultsOk faults asRead.isSome
  | .hostByteReceived .. => true
  | .powerLoss .. => true

end Sys2Proof
end

