-- ==== Sys2Proof/Tests/Slice0.lean ====
section
/-! SUPPORT. The author's tests: ill-formed operands, the manual's worked examples, one step of each
command, and for every statement a state and operands that meet its hypotheses. -/

namespace Sys2Proof.Tests
set_option Elab.async false
open Sys2Proof Sys2Proof.Machine

/-! ## States the tests start from -/

/-- The state a command leaves. -/
def after (c : Instr) (s : State) : State := match exec c s with | .next t => t | _ => s

/-- The records to be sent, as (kind, payload). -/
def sent (s : State) : List (Byte × List Byte) := (outbox s.hlp).map fun r => (r.kind, r.payload)

/-- The events that wait to be written, as (kind, value 1). -/
def events (s : State) : List (EventKind × Option Int) :=
  s.rma.logBuf.map fun e => (e.kind, e.value1)

/-- The mode. -/
def withMode (m : Mode) (s : State) : State := { s with mdc := { s.mdc with mode := m } }

/-- A slot on line A with the richest retry policy. -/
def slotOf (kind : Transaction) (node : Option Node) : SlotDesc :=
  ⟨kind, node, .a, 100, .sameThenAlternate, false, 0, false, false⟩

/-- Three slots: poll of axle 1, COMPUTE, command to the dynamic brake node. -/
def schedule : List SlotDesc :=
  [slotOf .axlePoll (some (.axle .a1)), slotOf .compute none, slotOf .dbCmd (some .db)]

/-- Configured and READY, with area B selected and in use, and no record to be sent. -/
def ready : State :=
  let p := { Params.defaults 1024 with
    link := { (Params.defaults 1024).link with framePeriod := some 100 }
    wheel := { (Params.defaults 1024).wheel with circumference := .fill (some 3300), pulses := some 120 } }
  { withMode .ready State.reset with
    pst := ⟨p, p, [], true, true⟩
    nlc := { Nlc.reset with
      areaB := ⟨schedule, true⟩, inUse := .b, selected := .b
      records := schedule.map fun _ => .initial } }

/-- RUNNING, between frames. -/
def running : State :=
  let s := withMode .running ready
  { s with nlc := { s.nlc with link := .waiting, period := 100, nextDue := 10000 } }

/-- RUNNING, within a frame. -/
def within (p : Progress) : State :=
  { running with nlc := { running.nlc with link := .inFrame, progress := p } }

/-- The first attempt of a slot. -/
def attempt (phase : Phase) : Attempt := ⟨1, .a, 5, [], 40, phase⟩

/-- RUNNING with the first slot's attempt in this phase. -/
def polling (phase : Phase) : State := within (.attempt 0 0 (attempt phase))

/-- RUNNING with a COMPUTE under way. -/
def computing : State := within (.compute 1 0 .running 200)

/-- The latch set by the input. -/
def latched (s : State) : State := { s with diu := { s.diu with latch := some .input, dEff := 6000 } }

/-- The dynamic brake in a state, with commands and capacities where it has effort. -/
def brake (st : DbState) (s : State) : State :=
  let n := if st = .available ∨ st = .cool then 400 else 0
  { s with
    dbs := { s.dbs with state := st, capacity := .fill n }
    ble := { s.ble with axles := s.ble.axles.map fun x => { x with command := n } } }

/-- An axle not isolated, in a slide state, its dump open in DUMP. -/
def slide (a : Axle) (x : SlideState) (s : State) : State :=
  { s with
    wsc := s.wsc.set a { s.wsc.get a with
      slide := x, nodeCause := false, dumpOpen := x == .dump, reliefFrames := 2 } }

/-- An axle fresh and sensor valid at a speed. -/
def moving (a : Axle) (speed : Nat) (s : State) : State :=
  { s with
    asu := { s.asu with
      axles := s.asu.axles.set a { s.asu.axles.get a with speed := speed, fresh := true, valid := true }
      standstill := false } }

/-- The reference speed. -/
def atSpeed (v : Nat) (s : State) : State := { s with asu := { s.asu with vRef := v } }

/-- The memory BUSY with this work, and no log entry waiting. -/
def busyWith (w : MemWork) (s : State) : State :=
  { s with rma := { s.rma with memory := some ⟨w, 50⟩, logBuf := [] } }

/-- The memory FREE, no log entry waiting, no block due for the scrub. -/
def free (s : State) : State :=
  { s with rma := { s.rma with memory := none, logBuf := [], scrubPos := 1 } }

/-- A snapshot under a number. -/
def snap (n : Nat) : Snapshot := snapshotOf n State.reset

/-- An incident whose window has these positions and ends at its trigger, snapshot `at'`. -/
def incident (at' : Nat) (l : List Position) : Incident :=
  ⟨1, .hostMark, 3, 20, at', [], 0, l.length, 0, l⟩

/-- Slot 1 as given. -/
def withSlot (x : Slot) (s : State) : State :=
  { s with irc := { s.irc with slots := s.irc.slots.set .s1 x } }

/-- Snapshots 5 and 6 in the ring. -/
def withRing (s : State) : State :=
  { s with irc := { s.irc with
    ring := [.snapshot (snap 5), .snapshot (snap 6)], lastSnap := 6, highSnap := 6 } }

/-- A log entry under a sequence. -/
def entry (seq : Nat) : LogEntry := { powerOnEntry with seq := seq }

/-- Entries 1 and 2 in the log. -/
def withLog (s : State) : State :=
  { s with irc := { s.irc with log := [entry 1, entry 2], lastLog := 2, highLog := 2 } }

/-- A read of the log from its oldest entry on. -/
def logRead (count : Nat) (service : Option Service) : ReadReq :=
  ⟨.log, none, count, 1, 0, 0, service⟩

/-- A read under way: its first item is being read, in a burst of 8. -/
def reading : State :=
  let s := busyWith .readItem (withLog ready)
  { s with
    rma := { s.rma with
      burst := some ⟨0, 8, false⟩
      reading := some ⟨⟨0, 0, .event (entry 1)⟩, false, some ⟨1, 1, .event (entry 2)⟩⟩ }
    hlp := { s.hlp with requests := [⟨9, .read (logRead 2 (some ⟨1, 0, [], 0⟩))⟩] } }

/-- A time since the last DEMAND. -/
def quiet (time : Nat) (s : State) : State := { s with diu := { s.diu with silenceTime := time } }

/-- Axle 1's node HEALTHY. -/
def nodeWell (s : State) : State :=
  { s with nlc := { s.nlc with health := s.nlc.health.set (.axle .a1) ⟨.healthy, 0, 1⟩ } }

/-- The transmitter sending a record. -/
def sending (r : TxRecord) (s : State) : State :=
  { s with hlp := { s.hlp with sending := some ⟨r, 100⟩ } }

/-- A reply of MARK. -/
def someReply : TxRecord := ⟨.reply, 0x0F, 1, [0]⟩

/-- The part in reset, or without supply. -/
def inPhase (p : PowerPhase) (s : State) : State := { s with sys := { s.sys with phase := p } }

/-! ## Ill-formed operands are refused -/

theorem test_param_write_needs_a_value : (Instr.paramWrite 0 0 0 []).wellFormed = false := by decide
theorem test_param_write_takes_at_most_31 :
    (Instr.paramWrite 0 0 0 (List.replicate 32 0)).wellFormed = false
    ∧ (Instr.paramWrite 0 0 0 (List.replicate 31 0)).wellFormed = true := by decide
theorem test_param_commit_takes_1_to_6 : (Instr.paramCommit 0 []).wellFormed = false
    ∧ (Instr.paramCommit 0 (List.replicate 7 0)).wellFormed = false := by decide
theorem test_sched_write_takes_1_to_31 : (Instr.schedWrite 0 0 0 []).wellFormed = false
    ∧ (Instr.schedWrite 0 0 0 (List.replicate 32 0)).wellFormed = false := by decide
theorem test_host_record_ends_at_250 :
    (Instr.hostRecordReceived 1 0 (List.replicate 251 0)).wellFormed = false
    ∧ (Instr.hostRecordReceived 1 0 (List.replicate 250 0)).wellFormed = true := by decide +kernel
theorem test_node_record_has_1_to_261_bytes : (Instr.nodeRecordReceived .a []).wellFormed = false
    ∧ (Instr.nodeRecordReceived .a (List.replicate 262 0)).wellFormed = false := by decide +kernel
theorem test_copy_faults_name_words : (Instr.copyDone [⟨4096, [0]⟩] none).wellFormed = false
    ∧ (Instr.copyDone [⟨0, []⟩] none).wellFormed = false
    ∧ (Instr.copyDone [⟨0, [16]⟩] none).wellFormed = false
    ∧ (Instr.copyDone [⟨0, [3, 3]⟩] none).wellFormed = false
    ∧ (Instr.copyDone [] (some (snap 1))).wellFormed = false
    ∧ (Instr.copyDone [⟨4095, [0, 15]⟩] (some (snap 1))).wellFormed = true := by decide +kernel
theorem test_scrub_has_16_words : (Instr.scrubDone 16 [0]).wellFormed = false
    ∧ (Instr.scrubDone 0 [16]).wellFormed = false ∧ (Instr.scrubDone 0 [1, 1]).wellFormed = false
    ∧ (Instr.scrubDone 15 [15]).wellFormed = true := by decide
theorem test_item_faults_name_words : (Instr.readItemDone [⟨4096, [0]⟩] none).wellFormed = false
    ∧ (Instr.readItemDone [] (some (.event (entry 1)))).wellFormed = false := by decide +kernel

/-! ## The manual's worked examples -/

theorem test_waterFill_three_passes :
    waterFill ⟨100, 300, 650, 700, 700, 700⟩ 3000 = ⟨100, 300, 650, 650, 650, 650⟩ := by decide +kernel
theorem test_waterFill_remainder :
    waterFill ⟨700, 700, 300, 700, 0, 700⟩ 2950 = ⟨663, 663, 300, 662, 0, 662⟩ := by decide +kernel
theorem test_air_split_and_pressures : airSplit 250 = ⟨42, 42, 42, 42, 41, 41⟩
    ∧ pressureFor (Params.defaults 1024).blend 42 = (53, false)
    ∧ pressureFor (Params.defaults 1024).blend 750 = (380, true)
    ∧ airEffort (Params.defaults 1024).blend 380 = 656 := by decide +kernel
theorem test_envelope_default : ([200, 700, 1000, 4200, 8000, 9999, 12000, 16000].map
    (Params.defaults 1024).dbrake.envelope) = [0, 400, 700, 700, 575, 451, 384, 250] := by decide +kernel
theorem test_heat_step : heatAfter 0 3000 6000 100 150 = 279
    ∧ heatAfter 12000069 0 6000 100 150 = 11999919 := by decide +kernel
theorem test_capacity_in_cool :
    capacityFor (Params.defaults 1024).dbrake .cool .normal 800 8000 = 450
    ∧ capacityFor (Params.defaults 1024).dbrake .available .recover 600 8000 = 575
    ∧ capacityFor (Params.defaults 1024).dbrake .cool .dump 210 8000 = 0 := by decide +kernel
theorem test_speed_of_interval : ([0, 618, 619, 1979, 1980, 65535].map
    (speedOf ready.pst.active.wheel .a1)) = [0, 16000, 15993, 5002, 5000, 151] := by decide +kernel
theorem test_crc16_check_value :
    crc16 [0x31, 0x32, 0x33, 0x34, 0x35, 0x36, 0x37, 0x38, 0x39] = 0x29B1 := by decide +kernel
theorem test_default_triggers_are_ten : (Axle.all.length, (List.range 64).filter
    fun i => defaultTriggers.getLsbD i) = (6, [1, 3, 7, 10, 18, 19, 22, 28, 46, 47]) := by decide +kernel

/-! ## One step of each command -/

theorem test_demand_clamps : let t := after (.demand 7 6001 381 true false) ready
    (t.diu.dReq, t.diu.indep) = (6000, 380)
    ∧ sent t = [(1, [3, 0x17, 0x70, 0x01, 0x7C, 0, 0, 0, 0])] := by decide +kernel
theorem test_demand_emergency :
    let t := after (.demand 7 0 0 false true) (brake .available running)
    (t.diu.latch, t.diu.dEff, t.dbs.state) = (some .flag, 6000, .rest) := by decide +kernel
theorem test_emergency_reset : let t := after (.emergencyReset 7) (latched ready)
    (t.diu.latch, t.diu.dEff) = (none, 0) ∧ sent t = [(2, [1, 0])] := by decide +kernel
theorem test_blend_after_emergency_reset :
    let s := latched running
    let t := after (.emergencyReset 7) { s with
      diu := { s.diu with dReq := 2500, indep := 120 }, ble := { s.ble with shortfall := true } }
    let u := computeWork t
    let v := computeWork u
    (u.diu.dEff, u.ble.eTotal, u.ble.aTotal, u.ble.axles.a6.target) = (150, 0, 0, 120)
    ∧ (t.ble.shortfall, u.ble.shortfall) = (true, false)
    ∧ (v.diu.dEff, v.ble.aTotal) = (300, 300) := by decide +kernel
theorem test_start_makes_a_frame_due : let t := after (.start 7) ready
    (t.mdc.mode, t.nlc.link, t.nlc.frameCounter) = (.running, .waiting, 0)
    ∧ (tick t).pending = [.frameTimerExpiry] ∧ (tick t).sys.clock = 0
    ∧ (after .frameTimerExpiry t).nlc.frameCounter = 1 := by decide +kernel
theorem test_commit_behind_start_acts_in_its_frame :
    let p := { ready.pst.active with link := { ready.pst.active.link with framePeriod := some 50 } }
    let s := after (.paramCommit 8 [0])
      (after (.start 7) { ready with pst := { ready.pst with staging := p } })
    let t := after .frameTimerExpiry s
    s.pst.pendingSets = [.link] ∧ (t.nlc.frameCounter, t.nlc.period, t.nlc.nextDue) = (1, 50, 5000) := by
  decide +kernel
theorem test_stop_between_frames : let t := after (.stop 7) running
    (t.mdc.mode, t.nlc.link) = (.stopped, .idle) ∧ sent t = [(4, [1])] := by decide +kernel
theorem test_stop_within_a_frame : let t := after (.stop 7) computing
    (t.mdc.mode, t.nlc.haltRequested) = (.running, true) ∧ sent t = [(4, [2])] := by decide +kernel
theorem test_park : (after (.park 7) running).mdc.mode = .parking := by decide +kernel
theorem test_unpark : (after (.unpark 7) (withMode .parked running)).mdc.mode = .unparking := by
  decide +kernel
theorem test_reset_admits_nothing_more :
    let t := after (.mark 8 1) (after (.reset 7) ready)
    sent t = [(7, [0])] ∧ t.sys.resetAsked = true := by decide +kernel
theorem test_param_write_stages_only : let t := after (.paramWrite 7 0 0 [50]) ready
    (t.pst.staging.link.framePeriod, t.pst.active.link.framePeriod) = (some 50, some 100) := by
  decide +kernel
theorem test_param_read_of_an_unset_field :
    sent (after (.paramRead 7 0 1 0 1) State.reset) = [(9, 0 :: 0 :: 1 :: List.replicate 8 0xFF)] := by
  decide +kernel
theorem test_param_commit_pends_while_running :
    let t := after (.paramCommit 7 [2, 0]) running
    t.pst.pendingSets = [.link, .blend] ∧ sent t = [(0x0A, [2, 0xFF, 0xFF, 0])] := by decide +kernel
theorem test_param_commit_clears_the_ring_before_its_trigger :
    let p := { ready.pst.active with recorder := { ready.pst.active.recorder with
      triggers := EventKind.configCommit.bit, ringCapacity := 256, preCount := 2, postCount := 1 } }
    let s := withRing { ready with pst := { ready.pst with staging := p } }
    let t := after (.paramCommit 7 [5]) s
    t.irc.ring = [] ∧ t.irc.slots.s1.isCapturing = false ∧ t.irc.slots.s1 ≠ .free := by decide +kernel
theorem test_sched_write_of_the_other_area :
    let t := after (.schedWrite 7 0 0 (schedule.map (·.encode))) ready
    t.nlc.areaA = ⟨schedule, false⟩ ∧ sent t = [(0x0B, [0, 3])] := by decide +kernel
theorem test_sched_read : (sent (after (.schedRead 7 1 2 1) ready))
    = [(0x0C, [0, 3, 1, 1, 5, 9, 0, 100, 0x30, 0, 0, 0])] := by decide +kernel
theorem test_schedule_select_of_an_empty_area :
    sent (after (.scheduleSelect 7 0) ready) = [(0x0D, [13, 1, 0xFF, 0, 0, 0, 0])] := by decide +kernel
theorem test_axle_cutout_isolates : let t := after (.axleCutout 7 1 1) (slide .a1 .normal running)
    (t.wsc.a1.slide, t.wsc.a1.cutout) = (.isolated, true) ∧ sent t = [(0x0E, [0, 4, 4])] := by
  decide +kernel
theorem test_mark_tells_its_sequence : let t := after (.mark 7 0x1234) ready
    sent t = [(0x0F, [0, 0, 0, 0, 2])] ∧ (.hostMark, some 0x1234) ∈ events t := by decide +kernel
theorem test_incident_list_of_a_free_slot :
    ((sent (after (.incidentList 7 1) ready)).map (·.2.length)) = [53] := by decide +kernel
theorem test_protect_a_frozen_slot :
    (after (.protect 7 1) (withSlot (.frozen false (incident 6 [])) ready)).irc.slots.s1
      = .frozen true (incident 6 []) := by decide +kernel
theorem test_release_frees :
    (after (.release 7 1) (withSlot (.frozen true (incident 6 [])) ready)).irc.slots.s1 = .free := by
  decide +kernel
theorem test_log_clear_keeps_numbers : let t := after (.logClear 7) (withLog ready)
    (t.irc.log, t.irc.lastLog) = ([], 2) := by decide +kernel
theorem test_ring_clear_busy_while_capturing :
    sent (after (.ringClear 7) (withSlot (.capturing (incident 6 [.pending])) ready))
      = [(0x14, [4])] := by decide +kernel
theorem test_read_snapshots_past_the_ring :
    sent (after (.readSnapshots 7 0 0 7 0x00 0) (free (withRing ready))) = [(0x15, [0, 0, 0, 0, 0, 0])] := by
  decide +kernel
theorem test_read_events_waits : (after (.readEvents 7 0 1 2) reading).hlp.requests.length = 2 := by
  decide +kernel
theorem test_read_axles_at_once : ((sent (after (.readAxles 7) ready)).map (·.2.length)) = [1 + 6 * 35] := by
  decide +kernel
theorem test_status_read_clears : let t := after (.statusRead 7) ready
    t.hlp.latched = 0 ∧ ((sent t).map (·.2.length)) = [44] := by decide +kernel
theorem test_notice_mask_asserts_attention :
    attention (after (.noticeMask 7 0 (1#64 <<< 41)) State.reset).hlp = true := by decide +kernel
theorem test_notice_mask_refuses_bit_0 :
    sent (after (.noticeMask 7 1 0) State.reset) = [(0x19, [8])] := by decide +kernel
theorem test_host_record_unknown_kind :
    sent (after (.hostRecordReceived 0x1A 7 []) ready) = [(0x1A, [6])] := by decide +kernel
theorem test_host_gap_counts_a_framing_error :
    (after .hostByteGapTimeout { ready with hlp := { ready.hlp with assembler := some [0] } }).hlp.framingErrors
      = 1 := by decide +kernel
theorem test_host_byte_completes_a_record :
    let body : List Byte := [0, 3, 9]
    let last := be 2 (crc16 body).toNat
    let s := { ready with hlp := { ready.hlp with assembler := some (body ++ last.take 1) } }
    (after (.hostByteReceived (last.getD 1 0) true) s).mdc.mode = .running := by decide +kernel
theorem test_host_record_sent_starts_the_next :
    let s := sending someReply { ready with hlp := { ready.hlp with waiting := [⟨.notice, 0x41, 0, []⟩] } }
    ((after .hostRecordSent s).hlp.sending.map (·.record.source)) = some .notice := by decide +kernel
theorem test_soft_reset_after_the_reply :
    let s := { ready with sys := { ready.sys with resetReplySent := true } }
    (after (.beginSoftReset true) s).sys.phase = .inReset .request := by decide +kernel
theorem test_supply_applied :
    (after .supplyApplied (inPhase .off ready)).sys.phase = .inReset .powerOn := by decide +kernel
theorem test_reset_input : (after (.resetInputAsserted false) ready).sys.phase = .inReset .input := by
  decide +kernel
theorem test_reset_releases_attention :
    let s := after (.noticeMask 7 0 (1#64 <<< 41)) State.reset
    attentionOutput s = true ∧ attentionOutput (after (.resetInputAsserted false) s) = false := by
  decide +kernel
theorem test_first_reset_end_is_the_reset_state :
    after (.resetEnd false false false false false)
      (inPhase (.inReset .powerOn) (State.blank .empty .r1843200 true)) = State.reset := by decide +kernel
theorem test_reset_end_freezes_the_capture :
    let s := inPhase (.inReset .request) (withSlot (.capturing (incident 6 [.pending])) ready)
    (after (.resetEnd false false false false false) s).irc.slots.s1
      = .frozen false (incident 6 [.missing]) := by decide +kernel
theorem test_emergency_input_rise : let t := after .emergencyInputRise running
    t.diu.dEff = 6000 ∧ t.ble.axles.a6.target = 450 := by decide +kernel
theorem test_emergency_input_fall : (after .emergencyInputFall
    { ready with diu := { ready.diu with emergInput := true } }).diu.emergInput = false := by decide +kernel
theorem test_sync_edge_unused_under_timer :
    (after .syncRisingEdge running).nlc.frameCounter = 0 := by decide +kernel
theorem test_frame_timer_starts_a_frame :
    (after .frameTimerExpiry running).nlc.nextDue = 20000 := by decide +kernel
theorem test_interval_starts_the_slot :
    (after .slotIntervalExpiry (within (.between 0 0))).nlc.progress
      = .attempt 0 0 ⟨1, .a, 0, nodeRecord 1 0 0 [], 40, .sending 30⟩ := by decide +kernel
theorem test_request_sent_awaits : (after .nodeRequestSent (polling (.sending 0))).nlc.progress
    = .attempt 0 0 (attempt (.awaiting 40)) := by decide +kernel
theorem test_echo_mismatch_raises_loop_fail :
    (.loopFail, some 0) ∈ events (after .echoMismatch (polling (.sending 0))) := by decide +kernel
theorem test_reply_start_ends_the_wait :
    (after (.nodeReplyStart .a) (polling (.awaiting 40))).nlc.progress
      = .attempt 0 0 (attempt (.receiving 40)) := by decide +kernel
theorem test_node_record_gives_the_speed :
    (after (.nodeRecordReceived .a (nodeRecord 1 8 5 [0x07, 0xBC, 0])) (polling (.awaiting 40))).asu.axles.a1.speed
      = 5000 := by decide +kernel
theorem test_node_record_stale_is_late :
    (.lateReply, some 0) ∈ events (after (.nodeRecordReceived .a (nodeRecord 1 8 4 [0x07, 0xBC, 0]))
      (polling (.awaiting 40))) := by decide +kernel
theorem test_reply_gap_fails_the_attempt :
    (after .nodeReplyGapExpiry { polling (.receiving 40) with pst := { ready.pst with
      active := { ready.pst.active with link := { ready.pst.active.link with retryEnable := false } } } }).nlc.records[0]?
      = some ⟨.failed, some .messageError, 1, 0⟩ := by decide +kernel
theorem test_response_timeout_retries :
    (after .responseTimeoutExpiry (polling (.awaiting 40))).nlc.seq.axles.a1 = 1 := by decide +kernel
theorem test_compute_complete_takes_a_snapshot :
    ((after .computeComplete computing).rma.capture.map (·.number)) = [1] := by decide +kernel
theorem test_snapshot_mode_is_that_of_the_compute :
    let s := within (.between 1 0)
    let t := after .computeComplete (after (.park 7) (after .slotIntervalExpiry s))
    t.mdc.mode = .parking ∧ t.rma.capture.map (·.mode) = [.running] := by decide +kernel
theorem test_silence_holds : (after .demandTimeoutExpiry (quiet 201 running)).diu.silence = .silentHold
    ∧ (after .demandTimeoutExpiry running).diu.silence = .normal := by decide +kernel
theorem test_hold_falls_back :
    let s := { running with diu := { running.diu with silence := .silentHold } }
    (after .silentHoldExpiry s).diu.dReq = 4500 := by decide +kernel
theorem test_excite_time_fails :
    (after .exciteTimeExpiry (brake .exciting running)).dbs.state = .lost := by decide +kernel
theorem test_rest_ends_in_off : (after .restTimeExpiry (brake .rest running)).dbs.state = .off := by
  decide +kernel
theorem test_dump_limit_closes : let t := after (.dumpLimitExpiry .a1) (slide .a1 .dump running)
    (t.wsc.a1.slide, t.wsc.a1.dumpOpen, t.wsc.a1.dumpRest) = (.relief, false, 1000) := by decide +kernel
theorem test_dump_rest_ends : (after (.dumpRestExpiry .a1)
    { running with wsc := running.wsc.set .a1 { running.wsc.a1 with dumpRest := 7 } }).wsc.a1.dumpRest = 0 := by
  decide +kernel
theorem test_parking_times_out :
    (after .parkingTimeExpiry (withMode .parking running)).mdc.mode = .parked := by decide +kernel
theorem test_read_timeout_answers :
    let s := fun src : ReadSource => withSlot (.capturing (incident 5 [])) { reading with
      hlp := { reading.hlp with requests := [⟨9, .read { logRead 1 none with source := src }⟩] } }
    sent (after .readTimeoutExpiry (s .log)) = [(0x16, [15, 0, 0, 0, 0, 0])]
    ∧ sent (after .readTimeoutExpiry (s (.slot .s1))) = [(0x15, [15, 0, 0, 0, 1, 0])] := by
  decide +kernel
theorem test_scrub_block_due : (after .scrubBlockDue (free ready)).rma.memory = some ⟨.scrub, 30⟩ := by
  decide +kernel
theorem test_scrub_period_is_late : (after .scrubPeriodExpiry (free ready)).rma.lateRaised = true := by
  decide +kernel
theorem test_scrub_done_goes_on :
    (after (.scrubDone 0 []) (busyWith .scrub { ready with rma := { ready.rma with scrubPos := 4095 } })).rma.scrubPos
      = 0 := by decide +kernel
theorem test_time_tag_wraps : let s := { ready with irc := { ready.irc with timeTag := 4294967295 } }
    (after .timeTagWrap s).irc.timeTag = 0 := by decide +kernel
theorem test_snapshot_write_joins_the_ring :
    let s := busyWith .snapshotWrite { ready with rma := { ready.rma with capture := [snap 7] } }
    (after .snapshotWriteDone s).irc.ring = [.snapshot (snap 7)] := by decide +kernel
theorem test_log_write_joins_the_log :
    (after .logWriteDone State.reset).irc.log = [powerOnEntry] := by decide +kernel
theorem test_copy_freezes :
    let s := busyWith .copy (withSlot (.capturing (incident 5 [.pending])) (withRing ready))
    (after (.copyDone [] none) s).irc.slots.s1 = .frozen false (incident 5 [.copied (snap 5)]) := by
  decide +kernel
theorem test_read_item_goes_on :
    ((after (.readItemDone [] none) reading).rma.burst, (sent (after (.readItemDone [] none) reading)).length)
      = (some ⟨1, 8, false⟩, 0) := by decide +kernel
theorem test_read_item_is_given_as_granted : ((sent (after (.readItemDone [] none)
    { reading with irc := emptyLog reading.irc })).map (·.2.take 6)) = [[14, 0, 0, 0, 0, 1]] := by
  decide +kernel
theorem test_power_loss_ends_all : (after (.powerLoss true) State.reset).sys.phase = .off
    ∧ (after (.powerLoss true) State.reset).irc.log = [powerOnEntry] := by decide +kernel
theorem test_a_cut_copy_carries_the_mark :
    let s := busyWith .copy (withSlot (.capturing (incident 5 [.pending])) (withRing ready))
    (after (.powerLoss true) { s with irc := { s.irc with marks := ⟨[0], [], .fill []⟩ } }).irc.marks.slots.s1
      = [0] := by decide +kernel
theorem test_a_microsecond_passes :
    (tick State.reset).sys.clock = 1 ∧ (tick State.reset).pending = [] := by decide +kernel

/-! ## A state and operands that meet the hypotheses of each statement -/

/-- A first slot's attempt under way, axle 1 in DUMP, and its dump limit in the queue. -/
def queued : State := { slide .a1 .dump (polling (.awaiting 40)) with pending := [.dumpLimitExpiry .a1] }

theorem brakeInv_queued : BrakeInv queued where
  noEffort _ _ := ⟨by intro a; cases a <;> decide +kernel, by intro a; cases a <;> decide +kernel⟩
  dump := by intro a; cases a <;> decide +kernel
  latch := by decide +kernel
  demand := by decide +kernel
  indep := by decide +kernel
  gain := by decide +kernel
  points := by decide +kernel
theorem linkInv_queued : LinkInv queued where
  modes := by simp only [idleMode, queued, slide, polling, within, running, withMode, reduceCtorEq]
  idle := by decide +kernel
  progress := by decide +kernel
  validated := by intro k; cases k <;> decide +kernel
  running := by decide +kernel
theorem linkInv_ready : LinkInv ready where
  modes := by simp only [idleMode, ready, withMode, Nlc.reset]
  idle := by decide +kernel
  progress := by decide +kernel
  validated := by intro k; cases k <;> decide +kernel
  running := by decide +kernel

/-- A slot CAPTURING whose one position is PENDING, its snapshot the oldest of the ring. -/
def copying : State := busyWith .copy (withSlot (.capturing (incident 5 [.pending])) (withRing ready))

theorem recordInv_copying : RecordInv copying where
  log := by decide +kernel
  ring := by decide +kernel
  capacity := ⟨.inr (.inr (.inl (by decide +kernel))), .inr (.inr (.inl (by decide +kernel))),
    .inr (.inr (.inl (by decide +kernel)))⟩
  capture := by decide +kernel
  logBuf := by decide +kernel
  requests := by decide +kernel
  notices := by decide +kernel
  oneCapturing := by intro j k; cases j <;> cases k <;> decide +kernel
  frozen := by
    intro k p i h
    cases k <;> simp [copying, busyWith, withSlot, withRing, ready, withMode, State.reset,
      State.blank, Irc.empty, PerSlot.set, PerSlot.get, PerSlot.fill] at h

theorem witness_StepRunsTheFrontCommand : queued.pending = .dumpLimitExpiry .a1 :: [] := by
  decide +kernel
theorem witness_EmptyQueueLetsAMicrosecondPass :
    ready.pending = [] ∧ (inPhase .off ready).pending = [] ∧ (inPhase .off ready).sys.phase ≠ .live
    ∧ ready.nlc.link ≠ .waiting ∧ reading.nlc.link ≠ .waiting
    ∧ (let s := after (.start 7) ready
      s.pending = [] ∧ s.sys.phase = .live ∧ s.nlc.link = .waiting ∧ s.nlc.awaitFirstEdge = false
        ∧ s.pst.active.link.startSource ≠ .sync ∧ s.nlc.nextDue = s.sys.clock)
    ∧ (let s := { ready with sys := { ready.sys with subMs := 998 } }
      s.pending = [] ∧ s.sys.phase = .live ∧ s.sys.subMs < 999)
    ∧ (let s := { reading with sys := { reading.sys with subMs := 999 } }
      s.pending = [] ∧ s.sys.phase = .live ∧ 999 ≤ s.sys.subMs
        ∧ s.hlp.requests[0]? = some ⟨9, .read (logRead 2 (some ⟨1, 0, [], 0⟩))⟩)
    ∧ (let s := { ready with
        sys := { ready.sys with subMs := 999 }, irc := { ready.irc with timeTag := 4294967295 } }
      s.pending = [] ∧ s.sys.phase = .live ∧ 4294967295 ≤ s.irc.timeTag
        ∧ .timeTagWrap ∈ (tick s).pending) := by decide +kernel
theorem witness_StepKeepsBrakeInvariant : BrakeInv queued ∧ ∃ t, step queued = .next t :=
  ⟨brakeInv_queued, _, rfl⟩
theorem witness_StepKeepsLinkInvariant : LinkInv queued ∧ ∃ t, step queued = .next t :=
  ⟨linkInv_queued, _, rfl⟩
theorem witness_StepKeepsRecordInvariant : RecordInv copying ∧ ∃ t, step copying = .next t :=
  ⟨recordInv_copying, _, rfl⟩

/-- Seven reply places used, four of them by waiting requests. -/
def full : State :=
  { ready with hlp := { ready.hlp with
    requests := List.replicate 4 ⟨1, .axles⟩, waiting := List.replicate 3 someReply } }

theorem witness_AdmissionTurnsRecordsAway :
    (inPhase .live ready).sys.phase = .live
    ∧ { ready.sys with resetAsked := true }.resetAsked = true
    ∧ (let s := { full with hlp := { full.hlp with waiting := List.replicate 4 someReply } }
      s.sys.phase = .live ∧ s.sys.resetAsked = false ∧ 8 ≤ placesUsed s.hlp)
    ∧ (full.sys.phase = .live ∧ full.sys.resetAsked = false ∧ placesUsed full.hlp < 8
      ∧ 4 ≤ full.hlp.requests.length)
    ∧ Admits { full with hlp := { full.hlp with requests := List.replicate 3 ⟨1, .axles⟩ } }
    ∧ 0x19 < (0x1A : Byte).toNat ∧ (0x19 : Byte).toNat ≤ 0x19
    ∧ ¬ allowedLength (0x19 : Byte).toNat [(0 : Byte)].length
    ∧ ¬ allowedLength (0x08 : Byte).toNat (List.replicate 2 (0 : Byte)).length := by
  refine ⟨by decide +kernel, by decide +kernel, by decide +kernel, by decide +kernel,
    by unfold Admits; decide +kernel, by decide, by decide, by simp [allowedLength], ?_⟩
  rintro ⟨k, h, _, e⟩
  simp at e
  omega
theorem witness_RecordRunsItsRequest :
    Admits ready ∧ 1 ≤ (0x01 : Byte).toNat ∧ (0x19 : Byte).toNat ≤ 0x19
    ∧ allowedLength (0x01 : Byte).toNat 5 ∧ allowedLength (0x19 : Byte).toNat 16
    ∧ allowedLength (0x08 : Byte).toNat 250 ∧ allowedLength (0x0A : Byte).toNat 6 := by
  refine ⟨by unfold Admits; decide +kernel, by decide, by decide, by simp [allowedLength],
    by simp [allowedLength], ⟨31, by decide, by decide, by decide⟩, by simp [allowedLength]⟩
theorem witness_BytesAssembleARecord :
    ready.sys.phase = .live ∧ ready.hlp.assembler = none ∧ (0xA4 : Byte) ≠ 0xA5
    ∧ (let s := { ready with hlp := { ready.hlp with assembler := some [] } }
      s.sys.phase = .live ∧ s.hlp.assembler = some [] ∧ [] ++ [(251 : Byte)] = 251 :: []
        ∧ 250 < (251 : Byte).toNat ∧ (250 : Byte).toNat ≤ 250 ∧ [(250 : Byte)].length ≠ 250 + 5)
    ∧ (let body : List Byte := [0, 3, 9]
      let crc := be 2 (crc16 body).toNat
      (body ++ crc).length = (0 : Byte).toNat + 5 ∧ crc ≠ [0, 0]) := by
  decide +kernel
theorem witness_RecordSentStartsTheOldest :
    ready.hlp.sending = none
    ∧ (sending ⟨.resetReply, 7, 1, [0]⟩ ready).sys.phase = .live
    ∧ ((sending someReply ready).sys.resetReplySent = false
      ∧ (sending someReply ready).hlp.waiting = [])
    ∧ (sending someReply full).hlp.waiting = someReply :: List.replicate 2 someReply := by decide +kernel
theorem witness_StatusReadShowsAndClears : Admits ready := by unfold Admits; decide +kernel
theorem witness_NoticeMaskReplacesBothMasks : Admits ready
    ∧ (∀ i, i = 0 ∨ 48 ≤ i → (0x0000FFFFFFFFFFFE : KindSet).getLsbD i = false)
    ∧ (1 : KindSet).getLsbD 0 = true ∧ (0x0001000000000000 : KindSet).getLsbD 48 = true := by
  refine ⟨by unfold Admits; decide +kernel, ?_, by decide, by decide⟩
  intro i h
  by_cases hi : i < 64
  · exact (show ∀ i < 64, i = 0 ∨ 48 ≤ i → (0x0000FFFFFFFFFFFE : KindSet).getLsbD i = false by decide)
      i hi h
  · exact BitVec.getLsbD_of_ge (0x0000FFFFFFFFFFFE : KindSet) i (by omega)

/-- The silence state. -/
def silent (x : Silence) (s : State) : State := { s with diu := { s.diu with silence := x } }

theorem witness_DemandStoresItsFields :
    Admits State.reset ∧ State.reset.mdc.mode = .unconfigured
    ∧ Admits (silent .silentFallback running) ∧ (silent .silentFallback running).mdc.mode ≠ .unconfigured
    ∧ (silent .silentFallback running).diu.silence ≠ .normal
    ∧ (true && (silent .silentFallback running).diu.latch.isNone) = true := by
  unfold Admits; decide +kernel
theorem witness_DemandActsOnTheDynamicBrake :
    Admits (brake .rest running) ∧ (brake .rest running).mdc.mode ≠ .unconfigured
    ∧ (brake .rest running).dbs.state = .rest
    ∧ Admits (latched (brake .cool running)) ∧ (latched (brake .cool running)).diu.latch.isSome = true
    ∧ (brake .cool running).dbs.state = .cool ∧ (brake .lost running).dbs.state = .lost
    ∧ Admits (brake .available running) ∧ (brake .available running).dbs.state ≠ .rest := by
  unfold Admits; decide +kernel
theorem witness_EmergencyResetClearsTheLatch :
    Admits (latched running) ∧ (latched running).diu.latch = some .input
    ∧ (latched running).asu.standstill = true ∧ (latched running).diu.emergInput = false
    ∧ (latched running).diu.demandEmergency = false
    ∧ Admits ready ∧ ready.diu.latch = none
    ∧ (let s := latched (moving .a1 50 running)
      Admits s ∧ s.diu.latch.isSome = true ∧ s.asu.standstill = false)
    ∧ (let s := { latched ready with diu := { (latched ready).diu with emergInput := true } }
      Admits s ∧ s.diu.latch.isSome = true ∧ s.asu.standstill = true ∧ s.diu.emergInput = true)
    ∧ (let s := { latched ready with diu := { (latched ready).diu with demandEmergency := true } }
      Admits s ∧ s.diu.latch.isSome = true ∧ s.asu.standstill = true ∧ s.diu.emergInput = false
        ∧ s.diu.demandEmergency = true) := by
  unfold Admits; decide +kernel
theorem witness_EmergencyInputSetsTheLatch :
    ready.sys.phase = .live ∧ (latched ready).diu.latch.isSome = true
    ∧ (slide .a1 .dump (brake .available running)).diu.latch = none
    ∧ (slide .a1 .dump (brake .available running)).mdc.mode = .running
    ∧ (withMode .parked running).mdc.mode = .parked ∧ (withMode .parked running).diu.latch = none := by
  decide +kernel

/-- Silent Hold 0 and Silent Emergency on. -/
def noHold (s : State) : State :=
  { s with pst := { s.pst with active := { s.pst.active with
    blend := { s.pst.active.blend with silentHold := 0, silentEmergency := true } } } }

theorem witness_SilenceAndHoldExpire :
    running.sys.phase = .live ∧ ready.mdc.mode ≠ .running ∧ running.diu.silenceTime = 0
    ∧ (quiet 1 running).mdc.mode = .running ∧ (quiet 1 running).diu.silence = .normal
    ∧ (quiet 1 running).diu.silenceTime ≠ 0
    ∧ running.pst.active.blend.silentHold ≠ 0 ∧ (noHold running).pst.active.blend.silentHold = 0
    ∧ running.diu.silence ≠ .silentHold ∧ (silent .silentHold running).diu.silence = .silentHold
    ∧ ((noHold running).pst.active.blend.silentEmergency && (noHold running).diu.latch.isNone) = true
    ∧ (running.pst.active.blend.silentEmergency && running.diu.latch.isNone) = false := by
  decide +kernel

/-- RUNNING with these demands. -/
def demanding (dReq dEff : Nat) : State :=
  { running with diu := { running.diu with dReq := dReq, dEff := dEff } }

/-- The latch cleared since the last COMPUTE. -/
def released (s : State) : State := { s with ble := { s.ble with released := true } }

theorem witness_ComputeTakesOneRateStep :
    (demanding 1 0).mdc.mode = .running ∧ (demanding 1 0).diu.latch = none
    ∧ (demanding 1 0).diu.dEff < (demanding 1 0).diu.dReq
    ∧ (demanding 5999 6000).diu.dReq < (demanding 5999 6000).diu.dEff
    ∧ (demanding 3000 3000).diu.dReq = (demanding 3000 3000).diu.dEff
    ∧ (withMode .parked running).mdc.mode ≠ .running
    ∧ (latched running).diu.latch.isSome = true
    ∧ (demanding 1 0).ble.released = false ∧ (released (demanding 1 0)).mdc.mode = .running
    ∧ (released (demanding 1 0)).diu.latch = none ∧ (released (demanding 1 0)).ble.released = true
    ∧ Admits (latched running) ∧ (latched running).asu.standstill = true
    ∧ (latched running).diu.emergInput = false
    ∧ (latched running).diu.demandEmergency = false := by unfold Admits; decide +kernel
/-- The shortfall condition set, for a time. -/
def short (time : Nat) (s : State) : State :=
  { s with ble := { s.ble with shortfall := true, sustainTime := time } }

theorem witness_BlendMeetsTheDemand :
    (brake .available running).mdc.mode = .running ∧ (brake .available running).diu.latch = none
    ∧ (demanding 6000 6000).ble.shortfall = false
    ∧ (computeWork (demanding 6000 6000)).ble.shortfall = true
    ∧ (released (short 90 (demanding 6000 0))).ble.released = true
    ∧ (released (short 90 (demanding 6000 0))).ble.shortfall = true
    ∧ (short 0 (demanding 0 0)).ble.released = false
    ∧ (short 0 (demanding 0 0)).ble.shortfall = true
    ∧ (computeWork (short 0 (demanding 0 0))).ble.shortfall = false
    ∧ (let s := short 19900 (demanding 6000 6000)
      s.ble.sustainedRaised = false ∧ (computeWork s).ble.shortfall = true
        ∧ s.pst.active.blend.sustain * 10 = min 600000 (s.ble.sustainTime + s.nlc.period))
    ∧ (demanding 0 0).ble.shortfall = false ∧ (computeWork (demanding 0 0)).ble.shortfall = false := by
  decide +kernel

/-- RUNNING with this D_req in force on air alone. -/
theorem brakeInv_demanding (n : Nat) (h : n ≤ 6000) : BrakeInv (demanding n n) where
  noEffort _ _ := ⟨by intro a; cases a <;> rfl, by intro a; cases a <;> rfl⟩
  dump a h := by cases a <;> cases h
  latch h := by cases h
  demand := ⟨h, h, by show 4500 ≤ 6000 ∧ 4500 ≤ 6000; omega⟩
  indep := Nat.zero_le _
  gain := by show 0 < 1920 ∧ 0 < 1920; omega
  points := ⟨rfl, rfl⟩

theorem witness_BlendSplitsAirAndSetsPressures :
    BrakeInv (demanding 3941 3941) ∧ (demanding 3941 3941).mdc.mode = .running
    ∧ (demanding 3941 3941).diu.latch = none
    ∧ (computeWork (demanding 5 5)).ble.axles.a6.airShare = 0
    ∧ (let x := (computeWork (demanding 3941 3941)).ble.axles.a6
      (x.airShare, 30 + (x.airShare * 1024 + 1919) / 1920) = (656, 380))
    ∧ (let x := (computeWork (demanding 3941 3941)).ble.axles.a1
      (x.airShare, 30 + (x.airShare * 1024 + 1919) / 1920) = (657, 381)) :=
  ⟨brakeInv_demanding _ (by decide), by decide +kernel⟩
/-- A park mode with every measured pressure as given. -/
def parkedAt (m : Mode) (p : Option Nat) : State :=
  let s := withMode m running
  { s with ble := { s.ble with axles := s.ble.axles.map fun x => { x with measured := p } } }

/-- PARKED, axle 1 at Roll Speed, its roll time one frame below Roll Time. -/
def rollingAway : State :=
  let s := nodeWell (moving .a1 100 (withMode .parked running))
  { s with mdc := { s.mdc with rollTime := ⟨9900, 0, 0, 0, 0, 0⟩ } }

theorem witness_ComputeUnderLatchOrInPark :
    (latched running).mdc.mode = .running ∧ (latched running).diu.latch.isSome = true
    ∧ (short 0 (latched running)).ble.shortfall = true
    ∧ (parkedAt .parking (some 310)).mdc.mode = .parking
    ∧ (Axle.all.all fun a => ((parkedAt .parking (some 310)).ble.axles.get a).measured == some 310
        && ((computeWork (parkedAt .parking (some 310))).ble.axles.get a).target == 300) = true
    ∧ (parkedAt .parking none).ble.axles.a6.measured = none
    ∧ (rollingAway.mdc.mode = .parked ∧ rollingAway.mdc.rollHold = false
      ∧ rollingAway.nlc.health.axles.a1.state ≠ .lost ∧ rollingAway.asu.axles.a1.valid = true
      ∧ rollingAway.pst.active.slide.rollSpeed = rollingAway.asu.axles.a1.speed
      ∧ (computeWork rollingAway).mdc.rollTime.a1 = rollingAway.pst.active.slide.rollTime * 10
      ∧ rollingAway.nlc.health.axles.a2.state = .lost)
    ∧ (withMode .unparking running).mdc.mode = .unparking
    ∧ (withMode .unparking running).nlc.frameChoice = .frame
    ∧ { running.nlc with frameChoice := .park }.frameChoice = .park := by decide +kernel
/-- The dynamic brake in a state, its grid at a heat. -/
def heated (heat : Nat) (st : DbState) : State :=
  let s := brake st running
  { s with dbs := { s.dbs with heat := heat } }

/-- RUNNING, the dynamic brake OFF and enabled, its node STALE. -/
def enabled : State :=
  { running with
    diu := { running.diu with dbEnable := true }
    nlc := { running.nlc with health := running.nlc.health.set .db ⟨.stale, 1, 0⟩ } }

theorem witness_ComputeFormsCapacityAndHeat :
    (computeWork (slide .a1 .relief running)).wsc.a1.slide = .relief
    ∧ (computeWork running).dbs.state = .off
    ∧ (computeWork (slide .a1 .normal (brake .available running))).wsc.a1.slide = .normal
    ∧ (computeWork (slide .a1 .normal (brake .available running))).dbs.state = .available
    ∧ (computeWork (heated 9000150 .cool)).dbs.state = .cool
    ∧ (enabled.dbs.state = .off ∧ enabled.mdc.mode = .running ∧ enabled.diu.dbEnable = true
      ∧ enabled.diu.latch = none ∧ enabled.nlc.health.db.state ≠ .lost
      ∧ enabled.dbs.nodeStatus.getLsbD 0 = false ∧ enabled.dbs.nodeStatus.getLsbD 1 = false)
    ∧ running.dbs.state = .off ∧ running.diu.dbEnable = false
    ∧ ((heated 12000150 .available).dbs.state = .available
      ∧ (computeWork (heated 12000150 .available)).dbs.heat = 12000000
      ∧ running.pst.active.dbrake.heatHigh = 12000000)
    ∧ (computeWork (heated 12000149 .available)).dbs.heat = 11999999
    ∧ ((heated 9000149 .cool).dbs.state = .cool ∧ running.pst.active.dbrake.heatLow = 9000000
      ∧ (computeWork (heated 9000149 .cool)).dbs.heat = 8999999)
    ∧ (computeWork (heated 9000150 .cool)).dbs.heat = 9000000
    ∧ (brake .exciting running).dbs.state = .exciting := by decide +kernel
theorem witness_EnvelopeInterpolates :
    let l := [(0, 0), (300, 0), (1000, 700)]
    l.Pairwise (fun p q => p.1 < q.1) ∧ l.head? = some (0, 0) ∧ l.getLast? = some (1000, 700)
    ∧ (300, 0) ∈ l ∧ l[1]? = some (300, 0) ∧ l[1 + 1]? = some (1000, 700) ∧ 300 ≤ 999 ∧ 999 < 1000 := by
  decide

/-- Axle 1 in NORMAL at 50 km/h with the reference speed at 50 km/h. -/
def rolling : State := atSpeed 5000 (moving .a1 5000 (slide .a1 .normal running))

theorem witness_ReferenceSpeedFollowsTheCandidate :
    (let ok := fun (s : State) (a : Axle) => ((s.asu.axles.get a).fresh = true
        ∧ (s.asu.axles.get a).valid = true ∧ (s.wsc.get a).slide ≠ .isolated);
      (¬ ∃ a, ok running a) ∧ ok rolling .a1
      ∧ ∀ b, ok rolling b → (rolling.asu.axles.get b).speed ≤ (rolling.asu.axles.get .a1).speed)
    ∧ { rolling.asu with acquire := true }.acquire = true ∧ rolling.mdc.mode = .running
    ∧ rolling.asu.acquire = false ∧ running.asu.degraded = false
    ∧ 0 < (computeWork rolling).asu.vRef
    ∧ (computeWork (atSpeed 3 running)).asu.vRef = 0 ∧ 0 < (atSpeed 3 running).asu.vRef
    ∧ (computeWork running).asu.vRef = 0 ∧ running.asu.vRef = 0 := by
  refine ⟨⟨?_, by decide +kernel, ?_⟩, by decide +kernel⟩
  · rintro ⟨a, h, _⟩
    cases a <;> exact absurd h (by decide)
  · intro b
    cases b <;> decide +kernel

/-- Axle 1 at 46.54 km/h: its creep is one above the threshold at 50 km/h. -/
def slipping (x : SlideState) : State := atSpeed 5000 (moving .a1 4654 (slide .a1 x running))

/-- Whether an axle slides (R72). -/
def slides (s : State) : Bool :=
  decide (s.pst.active.slide.creepBase + s.asu.vRef * s.pst.active.slide.creepRatio / 256
    < s.asu.vRef - s.asu.axles.a1.speed)

/-- Axle 1's sensor invalid, for a number of frames. -/
def blind (n : Nat) (s : State) : State :=
  { s with
    asu := { s.asu with axles := s.asu.axles.set .a1 { s.asu.axles.a1 with valid := false } }
    wsc := s.wsc.set .a1 { s.wsc.a1 with sensorInvalid := n } }

/-- Axle 1's counts one frame below their limits. -/
def almost (s : State) : State :=
  { s with wsc := s.wsc.set .a1 { s.wsc.a1 with
    episodeTime := 99900, lockTime := 4900, recoverFrames := 19 } }

theorem witness_SlideOnsetCutsTheCeiling :
    (slipping .normal).asu.axles.a1.valid = true ∧ (slipping .normal).wsc.a1.slide = .normal
    ∧ (slipping .normal).asu.axles.a1.fresh = true ∧ slides (slipping .normal) = true
    ∧ slides (moving .a1 4655 (slipping .normal)) = false
    ∧ (moving .a1 4655 (slipping .normal)).asu.axles.a1.decel = 0
    ∧ (slipping .isolated).wsc.a1.slide = .isolated ∧ (slipping .isolated).wsc.a1.nodeCause = false
    ∧ (slipping .isolated).wsc.a1.cutout = false
    ∧ (slipping .relief).wsc.a1.slide = .relief ∧ (slipping .dump).wsc.a1.slide = .dump
    ∧ (slipping .recover).wsc.a1.slide = .recover ∧ slides (slipping .relief) = true
    ∧ 5000 - (moving .a1 4950 (slipping .relief)).asu.axles.a1.speed
      = running.pst.active.slide.recoveryCreep
    ∧ running.pst.active.slide.recoveryCreep
      < 5000 - (moving .a1 4949 (slipping .relief)).asu.axles.a1.speed
    ∧ slides (moving .a1 4949 (slipping .relief)) = false
    ∧ (almost (slipping .recover)).wsc.a1.recoverFrames + 1 = running.pst.active.slide.recoverFrames
    ∧ (slipping .recover).wsc.a1.recoverFrames + 1 < running.pst.active.slide.recoverFrames
    ∧ ((almost (slipping .dump)).wsc.a1.sustainedRaised = false
      ∧ running.pst.active.slide.sustainedTime * 10
        = (almost (slipping .dump)).wsc.a1.episodeTime + running.nlc.period)
    ∧ (let s := almost (moving .a1 0 (slipping .normal))
      s.asu.axles.a1.speed = 0 ∧ s.pst.active.slide.lockSpeed ≤ s.asu.vRef
        ∧ s.wsc.a1.lockRaised = false
        ∧ s.pst.active.slide.lockTime * 10 = s.wsc.a1.lockTime + s.nlc.period
        ∧ (atSpeed 499 s).asu.vRef < s.pst.active.slide.lockSpeed)
    ∧ { rolling.asu.axles.a1 with fresh := false }.fresh = false
    ∧ ((blind 1 rolling).asu.axles.a1.valid = false ∧ (blind 1 rolling).wsc.a1.slide ≠ .isolated
      ∧ (blind 1 rolling).wsc.a1.sensorCause = false
      ∧ running.pst.active.link.holdFrames = (blind 1 rolling).wsc.a1.sensorInvalid + 1
      ∧ (blind 0 rolling).wsc.a1.sensorInvalid + 1 < running.pst.active.link.holdFrames)
    ∧ (blind 1 running).wsc.a1.slide = .isolated := by decide +kernel

theorem witness_DumpOpensOnlyWhenAllowed :
    (nodeWell (slipping .relief)).wsc.a1.dumpOpen = false
    ∧ ((wscAxle .a1 (nodeWell (slipping .relief))).wsc.a1.dumpOpen = true) := by decide +kernel
theorem witness_ExciteAndRestTimesExpire :
    running.sys.phase = .live ∧ running.dbs.state ≠ .exciting ∧ (brake .exciting running).dbs.state = .exciting
    ∧ running.dbs.state ≠ .rest
    ∧ (let s := { brake .rest running with
        dbs := { (brake .rest running).dbs with pendingEnable := true }
        nlc := { running.nlc with health := running.nlc.health.set .db ⟨.stale, 1, 0⟩ } }
      s.dbs.state = .rest ∧ s.dbs.pendingEnable = true ∧ s.mdc.mode = .running ∧ s.diu.latch = none
        ∧ s.nlc.health.db.state ≠ .lost ∧ s.dbs.nodeStatus.getLsbD 0 = false
        ∧ s.dbs.nodeStatus.getLsbD 1 = false)
    ∧ (brake .rest running).dbs.pendingEnable = false
    ∧ (brake .rest running).nlc.health.db.state = .lost := by decide +kernel
theorem witness_CutoutIsolatesTheAxle :
    Admits State.reset ∧ State.reset.mdc.mode = .unconfigured ∧ Admits ready ∧ ready.mdc.mode ≠ .unconfigured
    ∧ (0 : Byte).toNat = 0 ∧ 6 < (7 : Byte).toNat ∧ 1 < (2 : Byte).toNat
    ∧ (6 : Byte).toNat = Axle.a6.number
    ∧ { ready.wsc.a6 with cutout := true }.cutout = true ∧ ready.wsc.a6.cutout = false
    ∧ ready.wsc.a6.slide = .isolated ∧ (slide .a6 .dump running).wsc.a6.slide ≠ .isolated := by
  unfold Admits; decide +kernel
theorem witness_DumpLimitClosesTheDump :
    running.sys.phase = .live ∧ running.wsc.a1.dumpOpen = false
    ∧ (slide .a1 .dump running).wsc.a1.dumpOpen = true
    ∧ (slide .a1 .dump running).wsc.a1.slide = .dump := by decide +kernel

/-- A frame start source, and whether the first edge is still awaited. -/
def startedBy (x : StartSource) (first : Bool) (s : State) : State :=
  { s with
    nlc := { s.nlc with awaitFirstEdge := first }
    pst := { s.pst with active := { s.pst.active with
      link := { s.pst.active.link with startSource := x } } } }

/-- The area in use with these slots. -/
def withSlots (l : List SlotDesc) (s : State) : State :=
  { s with nlc := { s.nlc with areaB := ⟨l, true⟩, records := l.map fun _ => .initial } }

/-- One set committed and pending. -/
def pendingOn (x : ParamSet) (s : State) : State := { s with pst := { s.pst with pendingSets := [x] } }

/-- The dynamic brake's counts of excitation and rest. -/
def timed (n : Nat) (s : State) : State :=
  { s with dbs := { s.dbs with exciteTime := n, restTime := n } }

/-- An axle in DUMP, its dump open for a time. -/
def dumpedFor (n : Nat) (s : State) : State :=
  let s := slide .a1 .dump s
  { s with wsc := s.wsc.modify .a1 fun x => { x with dumpOpenTime := n } }

/-- The states in which an activation acts at once, each at the boundary of its limit. -/
theorem witness_Activated :
    (pendingOn .blend (quiet 201 running)).pst.pendingSets = [.blend]
    ∧ running.pst.active.blend.demandTimeout = 200 ∧ running.pst.active.blend.silentHold ≠ 0
    ∧ (noHold (silent .silentHold running)).pst.active.blend.silentHold
      = (noHold (silent .silentHold running)).diu.holdTime
    ∧ (let s := dumpedFor running.pst.active.slide.dumpLimit running
      s.wsc.a1.dumpOpen = true ∧ s.wsc.a1.slide = .dump
        ∧ s.pst.active.slide.dumpLimit = s.wsc.a1.dumpOpenTime)
    ∧ (dumpedFor (running.pst.active.slide.dumpLimit - 1) running).wsc.a1.dumpOpenTime
      < running.pst.active.slide.dumpLimit
    ∧ (let s := timed running.pst.active.dbrake.exciteTime (brake .exciting running)
      s.dbs.state = .exciting ∧ s.pst.active.dbrake.exciteTime = s.dbs.exciteTime)
    ∧ (let s := timed running.pst.active.dbrake.restTime (brake .rest running)
      s.dbs.state = .rest ∧ s.pst.active.dbrake.restTime = s.dbs.restTime
        ∧ s.dbs.pendingEnable = false)
    ∧ (timed 0 (brake .exciting running)).dbs.exciteTime < running.pst.active.dbrake.exciteTime
    ∧ (timed 0 (brake .rest running)).dbs.restTime < running.pst.active.dbrake.restTime
    ∧ (brake .cool running).dbs.state = .cool ∧ (brake .lost running).dbs.state = .lost
    ∧ (let r := { logRead 1 none with waitTime := running.pst.active.recorder.readTimeout }
      let w : Waiting := ⟨8, .read r⟩
      let s := { reading with hlp := { reading.hlp with requests := reading.hlp.requests ++ [w] } }
      s.rma.memory ≠ none ∧ w ∈ s.hlp.requests ∧ r.service = none
        ∧ s.sys.resetAsked = false ∧ s.rma.lateRaised = false
        ∧ s.pst.active.recorder.scrubPeriod * 1000 = 60000
        ∧ { s.rma with passTimer := 60000 }.passTimer = 60000) := by decide +kernel
theorem witness_DueStartBeginsAFrame :
    (pendingOn .dbrake running).pst.pendingSets = [.dbrake] ∧
    running.nlc.link = .waiting ∧ running.nlc.awaitFirstEdge = false
    ∧ running.pst.active.link.startSource ≠ .sync ∧ 10000 = running.nlc.nextDue
    ∧ (startedBy .sync true running).pst.active.link.startSource = .sync
    ∧ (startedBy .syncThenTimer true running).pst.active.link.startSource = .syncThenTimer
    ∧ (startedBy .syncThenTimer true running).nlc.awaitFirstEdge = true
    ∧ (startedBy .syncThenTimer true running).nlc.link = .waiting ∧ 0 = running.sys.clock
    ∧ (running.nlc.area running.nlc.selected).slots[0]? = some (slotOf .axlePoll (some (.axle .a1)))
    ∧ running.mdc.mode ≠ .parked
    ∧ ((withSlots [slotOf .compute none] running).nlc.area .b).slots[0]? = some (slotOf .compute none)
    ∧ (slotOf .compute none).kind = .compute ∧ (slotOf .compute none).node = none
    ∧ computing.nlc.link = .inFrame ∧ computing.nlc.awaitFirstEdge = false
    ∧ (startedBy .sync false computing).nlc.link = .inFrame ∧ ready.nlc.link = .idle := by decide +kernel
theorem witness_AttemptAndIntervalProgress :
    ((polling (.sending 30)).sys.phase = .live
      ∧ (polling (.sending 30)).nlc.progress = .attempt 0 0 (attempt (.sending 30))
      ∧ (attempt (.awaiting 40)).phase = .awaiting 40 ∧ (attempt (.awaiting 40)).line = .a)
    ∧ (let s := within (.between 2 100)
      s.nlc.progress = .between 2 100 ∧ s.mdc.mode ≠ .parked
        ∧ (s.nlc.area s.nlc.inUse).slots[2]? = some (slotOf .dbCmd (some .db))
        ∧ (slotOf .dbCmd (some .db)).node = some .db)
    ∧ (let s := withMode .parked (within (.between 0 100))
      s.nlc.progress = .between 0 100 ∧ s.mdc.mode = .parked
        ∧ (s.nlc.area s.nlc.inUse).slots[0]?.map (fun e => (e.parkActive, decide (e.kind = .compute)))
          = some (false, false)
        ∧ (s.nlc.area s.nlc.inUse).slots[1]? = some (slotOf .compute none))
    ∧ (∀ slot start a, running.nlc.progress ≠ .attempt slot start a)
    ∧ (∀ slot startAt, running.nlc.progress ≠ .between slot startAt) :=
  ⟨by decide +kernel, by decide +kernel, by decide +kernel,
    (fun _ _ _ h => nomatch h), (fun _ _ h => nomatch h)⟩

/-- The first slot's retry policy. -/
def policy (x : RetryPolicy) (s : State) : State :=
  { s with nlc := { s.nlc with areaB :=
    ⟨{ slotOf .axlePoll (some (.axle .a1)) with policy := x } :: schedule.drop 1, true⟩ } }

/-- An attempt by its number, awaiting its reply. -/
def numbered (n : Nat) : State := within (.attempt 0 0 { attempt (.awaiting 40) with number := n })

theorem witness_FailedAttemptIsRetried :
    (numbered 2).sys.phase = .live
    ∧ (numbered 2).nlc.progress = .attempt 0 0 { attempt (.awaiting 40) with number := 2 }
    ∧ ((numbered 2).nlc.area (numbered 2).nlc.inUse).slots[0]? = some (slotOf .axlePoll (some (.axle .a1)))
    ∧ (slotOf .axlePoll (some (.axle .a1))).node = some (.axle .a1)
    ∧ (numbered 2).pst.active.link.retryEnable = true
    ∧ (slotOf .axlePoll (some (.axle .a1))).policy = .sameThenAlternate ∧ Line.b ≠ Line.a
    ∧ (attempt (.awaiting 40)).number = 1
    ∧ (((policy .same (numbered 1)).nlc.area .b).slots[0]?.map (·.policy)) = some .same
    ∧ (((policy .alternate (numbered 1)).nlc.area .b).slots[0]?.map (·.policy)) = some .alternate
    ∧ (attempt (.receiving 40)).phase = .receiving 40 ∧ (attempt (.sending 30)).phase = .sending 30 := by
  decide +kernel
theorem witness_LastFailedAttemptFailsTheSlot :
    (let s := numbered 3;
      s.sys.phase = .live ∧ s.nlc.progress = .attempt 0 0 { attempt (.awaiting 40) with number := 3 }
      ∧ (s.nlc.area s.nlc.inUse).slots[0]? = some (slotOf .axlePoll (some (.axle .a1)))
      ∧ (s.nlc.area s.nlc.inUse).slots[0 + 1]? = some (slotOf .compute none)
      ∧ s.nlc.records[0]? = some SlotRecord.initial ∧ s.mdc.mode ≠ .parked
      ∧ s.sys.clock < 0 + 100 ∧ 0 + 100 ≤ { s.sys with clock := 100 }.clock)
    ∧ (slotOf .axlePoll (some (.axle .a1))).stopOnError = false ∧ (slotOf .compute none).node = none
    ∧ (({ attempt (.awaiting 40) with number := 3 } : Attempt).phase = .awaiting 40)
    ∧ (((policy .none (numbered 1)).nlc.area .b).slots[0]?.map (·.policy)) = some .none
    ∧ (((policy .same (numbered 2)).nlc.area .b).slots[0]?.map (·.policy)) = some .same
    ∧ (let l := slotOf .axlePoll (some (.axle .a1)) :: schedule
      ((withSlots l (numbered 3)).nlc.area .b).slots[0 + 1]?.map (·.node) = some (some (.axle .a1))) := by
  decide +kernel
/-- The reply of a node awaited, a COMPUTE slot after its own. -/
def answering (kind : Transaction) (node : Node) (s : State) : State :=
  let t := withSlots [slotOf kind (some node), slotOf .compute none] s
  { t with nlc := { t.nlc with link := .inFrame, progress := .attempt 0 0 (attempt (.awaiting 40)) } }

/-- The dynamic brake node HEALTHY. -/
def brakeWell (s : State) : State :=
  { s with nlc := { s.nlc with health := s.nlc.health.set .db ⟨.healthy, 0, 1⟩ } }

theorem witness_TakenReplyReachesItsBlocks :
    (let s := polling (.receiving 40);
      s.sys.phase = .live ∧ s.nlc.link ≠ .idle ∧ s.nlc.progress = .attempt 0 0 (attempt (.receiving 40))
      ∧ (s.nlc.area s.nlc.inUse).slots[0]? = some (slotOf .axlePoll (some (.axle .a1)))
      ∧ s.pst.active.wheel.circumference.a1 = some 3300 ∧ s.pst.active.wheel.pulses = some 120)
    ∧ parseNode (nodeRecord 1 8 5 [0, 0, 0]) = some ⟨Node.address (.axle .a1), (expectedReply .axlePoll).1,
      (attempt (.receiving 40)).seq, [0, 0, 0]⟩
    ∧ [(0 : Byte), 0, 0].length = (expectedReply .axlePoll).2
    ∧ parseNode (nodeRecord 9 11 5 [3]) = some ⟨Node.address .db, (expectedReply .dbCmd).1, 5, [3]⟩
    ∧ parseNode (nodeRecord 8 11 5 [3]) = some ⟨Node.address .air, (expectedReply .airCmd).1, 5, [3]⟩
    ∧ (expectedReply .axleCmd).2 = [(3 : Byte)].length
    ∧ (let s := answering .dbPoll .db (brakeWell (brake .exciting running))
      s.sys.phase = .live ∧ s.nlc.link ≠ .idle ∧ s.nlc.progress = .attempt 0 0 (attempt (.awaiting 40))
      ∧ (s.nlc.area s.nlc.inUse).slots[0]? = some (slotOf .dbPoll (some .db))
      ∧ (s.nlc.area s.nlc.inUse).slots[0 + 1]? = some (slotOf .compute none)
      ∧ s.sys.clock < 0 + (slotOf .dbPoll (some .db)).interval ∧ s.mdc.mode ≠ .parked
      ∧ (slotOf .dbPoll (some .db)).stopOnError = false ∧ s.nlc.records[0]? = some SlotRecord.initial
      ∧ s.dbs.state = .exciting ∧ s.nlc.health.db.state = .healthy)
    ∧ (let p := fun (ready status : Byte) => List.replicate 12 (0 : Byte) ++ [ready, status]
      parseNode (nodeRecord 9 10 5 (p 1 0)) = some ⟨Node.address .db, (expectedReply .dbPoll).1, 5, p 1 0⟩
      ∧ (p 1 0).length = (expectedReply .dbPoll).2 ∧ ((p 1 0).getD 12 0).getLsbD 0 = true
      ∧ ((p 0 0).getD 12 0).getLsbD 0 = false ∧ ((p 0 3).getLastD 0).getLsbD 0 = true
      ∧ ((p 0 2).getLastD 0).getLsbD 1 = true)
    ∧ (answering .dbPoll .db (brake .cool running)).dbs.state = .cool
    ∧ (answering .dbCmd .db running).dbs.state = .off
    ∧ (answering .axleCmd (.axle .a1) (slide .a1 .dump running)).wsc.a1.slide = .dump
    ∧ (([2] : List Byte).getLastD 0).getLsbD 1 = true
    ∧ ((2 : Byte) &&& ~~~(slotOf .axleCmd (some (.axle .a1))).ignore) ≠ SlotRecord.initial.lastFlags
    ∧ { slotOf .axleCmd (some (.axle .a1)) with retryOnStatus := true }.retryOnStatus = true
    ∧ { slotOf .axleCmd (some (.axle .a1)) with policy := .none }.policy = .none := by decide +kernel
theorem witness_WrongRecordIsNotTaken :
    (let s := polling (.receiving 40);
      ready.sys.phase = .live ∧ ready.nlc.link = .idle ∧ s.nlc.link ≠ .idle
      ∧ s.nlc.progress = .attempt 0 0 (attempt (.receiving 40)) ∧ (attempt (.receiving 40)).line = .a
      ∧ parseNode [0x5A] = none
      ∧ parseNode (nodeRecord 2 8 5 [0, 0, 0]) = some ⟨2, 8, 5, [0, 0, 0]⟩
      ∧ parseNode (nodeRecord 1 9 5 [0, 0, 0]) = some ⟨1, 9, 5, [0, 0, 0]⟩
      ∧ parseNode (nodeRecord 1 8 5 [0, 0]) = some ⟨1, 8, 5, [0, 0]⟩
      ∧ parseNode (nodeRecord 1 8 4 [0, 0, 0]) = some ⟨1, 8, 4, [0, 0, 0]⟩ ∧ 4 ≠ (attempt (.receiving 40)).seq
      ∧ running.nlc.link ≠ .idle)
    ∧ (∀ slot start a, running.nlc.progress = .attempt slot start a → a.line ≠ .b)
    ∧ (∀ r node, parseNode [0x5A] = some r → r.address ≠ Node.address node) :=
  ⟨by decide +kernel, (fun _ _ _ h => nomatch h), (fun _ _ h => nomatch h)⟩
theorem witness_RecordAndDescriptorRoundTrip :
    255 < 256 ∧ 15 < 16 ∧ (List.replicate 255 (0 : Byte)).length < 256
    ∧ (slotOf .compute none).interval < 65536 ∧ (slotOf .compute none).node = none
    ∧ nodeFits .airCmd .air = true ∧ (slotOf .airCmd (some .air)).node = some .air := by decide +kernel

/-- Area A selected while area B is in use. -/
def switching : State := { running with nlc := { running.nlc with
  selected := .a, areaA := ⟨schedule, true⟩ } }

theorem witness_ScheduleWriteAndRead :
    Admits ready ∧ (0 : Byte).toNat = AreaId.a.code ∧ (1 : Byte).toNat = AreaId.b.code
    ∧ (∀ d ∈ List.replicate 31 (slotOf .compute none), descOf (be 8 d.encode.toNat) = some d)
    ∧ AreaId.b = ready.nlc.inUse ∧ AreaId.a ≠ ready.nlc.inUse ∧ AreaId.a ≠ ready.nlc.selected
    ∧ Admits switching ∧ AreaId.a ≠ switching.nlc.inUse ∧ AreaId.a = switching.nlc.selected
    ∧ (ready.nlc.area .a).slots.length < (1 : Byte).toNat
    ∧ (0 : Byte).toNat + (List.replicate 31 (slotOf .compute none)).length ≤ 32
    ∧ (3 : Byte).toNat ≤ (ready.nlc.area .b).slots.length ∧ (30 : Byte).toNat ≤ 30
    ∧ 30 < (31 : Byte).toNat := by
  unfold Admits; decide +kernel

/-- Area A as given, the link IDLE. -/
def areaA (l : List SlotDesc) : State := { ready with nlc := { ready.nlc with areaA := ⟨l, false⟩ } }

theorem witness_ScheduleSelectValidates :
    let poll := slotOf .axlePoll (some (.axle .a1))
    let comp := slotOf .compute none
    let cmd := slotOf .dbCmd (some .db)
    let isCompute := fun d : SlotDesc => d.kind == .compute
    let sum := fun l : List SlotDesc => (l.map fun d => max d.interval (nominal d.kind)).sum
    Admits State.reset ∧ State.reset.pst.linkOnce = false ∧ (0 : Byte).toNat = AreaId.a.code
    ∧ Admits (areaA []) ∧ (areaA []).pst.linkOnce = true ∧ ((areaA []).nlc.area .a).slots = []
    ∧ ((areaA [poll]).nlc.area .a).slots.all (fun d => !isCompute d) = true
    ∧ ((areaA [comp, poll, comp]).nlc.area .a).slots = [] ++ comp :: ([poll] ++ comp :: [])
    ∧ ((areaA [poll, cmd, comp]).nlc.area .a).slots = ([poll] ++ cmd :: []) ++ comp :: []
    ∧ isCommand cmd.kind = true ∧ [poll].all (fun d => !isCommand d.kind) = true
    ∧ (areaA []).pst.active.link.framePeriod.getD 0 * 100 = 10000
    ∧ sum [poll, { comp with interval := 10000 }] > 10000 ∧ sum schedule ≤ 10000
    ∧ ((areaA schedule).nlc.area .a).slots = [poll] ++ comp :: [cmd]
    ∧ (areaA schedule).nlc.link = .idle ∧ switching.nlc.link ≠ .idle ∧ switching.pst.linkOnce = true := by
  unfold Admits; decide +kernel
theorem witness_ComputeCompletionTakesTheSnapshot :
    (∀ slot start mode doneAt, running.nlc.progress ≠ .compute slot start mode doneAt)
    ∧ computing.sys.phase = .live ∧ computing.nlc.progress = .compute 1 0 .running 200
    ∧ computing.sys.resetAsked = false
    ∧ (⟨1, .axles⟩ : Waiting) ∈ { computing.hlp with requests := full.hlp.requests }.requests
    ∧ (computing.nlc.area computing.nlc.inUse).slots[1]? = some (slotOf .compute none)
    ∧ (computing.nlc.area computing.nlc.inUse).slots[1 + 1]? = some (slotOf .dbCmd (some .db))
    ∧ computing.mdc.mode ≠ .parked ∧ computing.nlc.records[1]? = some SlotRecord.initial
    ∧ computing.sys.clock < 0 + 100
    ∧ { computing.pst.active.link with reportDivisor := 1 }.reportDivisor = computing.hlp.reportDivider + 1
    ∧ computing.rma.capture.length < 2
    ∧ (let s := { withSlot (.capturing (incident 6 [.pending, .pending])) computing with
        rma := { computing.rma with capture := [snap 5, snap 6] } }
      s.rma.capture = [snap 5, snap 6] ∧ s.irc.lastSnap < 4294967295 ∧ s.rma.gap = none
        ∧ s.irc.slots.get .s1 = .capturing (incident 6 [.pending, .pending])
        ∧ (s.irc.slots.get .s2).isCapturing = false ∧ (s.irc.slots.get .s3).isCapturing = false
        ∧ (s.irc.slots.get .s4).isCapturing = false
        ∧ (incident 6 [.pending, .pending]).firstNumber + 0 = (snap 5).number
        ∧ (after .computeComplete s).rma.gap = some (5, 5)
        ∧ (after .computeComplete s).irc.slots.get .s1
          = .capturing (incident 6 [.missing, .pending])) :=
  ⟨(fun _ _ _ _ h => nomatch h), by decide +kernel⟩

/-- RUNNING with this outcome of the first slot, and this health of axle 1's node. -/
def judged (o : Outcome) (h : Health) : State :=
  { running with nlc := { running.nlc with
    records := { SlotRecord.initial with outcome := o } :: running.nlc.records.drop 1
    health := running.nlc.health.set (.axle .a1) h } }

/-- The last attempt of the last slot, with a start pending or none, a halt requested or not, and Frame Stop
on or off. -/
def ending (start : Option Nat) (halts stops : Bool) : State :=
  let s := within (.attempt 2 0 { attempt (.awaiting 40) with number := 3 })
  { s with
    nlc := { s.nlc with startPending := start, haltRequested := halts }
    pst := { s.pst with active := { s.pst.active with link := { s.pst.active.link with frameStop := stops } } } }

theorem witness_FrameEndJudgesTheNode :
    (let s := judged .failed ⟨.stale, 1, 0⟩
      let x := (slotOf .axlePoll (some (.axle .a1)), ({ SlotRecord.initial with outcome := .failed } : SlotRecord))
      x ∈ (s.nlc.area s.nlc.inUse).slots.zip s.nlc.records ∧ x.1.node = some (.axle .a1)
        ∧ x.2.outcome = .failed ∧ s.pst.active.link.holdFrames = 1 + 1
        ∧ (s.nlc.health.get (.axle .a1)).state ≠ .lost)
    ∧ (let s := judged .ok ⟨.lost, 0, 9⟩
      let l := (s.nlc.area s.nlc.inUse).slots.zip s.nlc.records
      (∀ x ∈ l, ¬ (x.1.node = some (.axle .a1) ∧ x.2.outcome = .failed))
        ∧ (∃ x ∈ l, x.1.node = some (.axle .a1) ∧ x.2.outcome = .ok)
        ∧ s.pst.active.link.reintegration = 9 + 1 ∧ (s.nlc.health.get (.axle .a1)).state = .lost)
    ∧ (let s := ending none false false
      s.sys.phase = .live ∧ s.nlc.link = .inFrame
        ∧ (s.nlc.area s.nlc.inUse).slots[2]? = some (slotOf .dbCmd (some .db))
        ∧ s.nlc.records.length = (s.nlc.area s.nlc.inUse).slots.length
        ∧ (∃ e ∈ (s.nlc.area s.nlc.selected).slots, e.kind = .compute)
        ∧ s.nlc.progress = .attempt 2 0 { attempt (.awaiting 40) with number := 3 }
        ∧ (slotOf .dbCmd (some .db)).node.isSome = true
        ∧ (s.nlc.area s.nlc.inUse).slots.length = 2 + 1
        ∧ s.pst.active.link.frameStop = false ∧ s.nlc.haltRequested = false
        ∧ s.nlc.startPending = none
        ∧ (after .responseTimeoutExpiry s).nlc.records
          = [.initial, .initial, ⟨.failed, some .noReply, 1, 0⟩])
    ∧ ((after .responseTimeoutExpiry (ending none false true)).mdc.mode = .stopped
      ∧ (after .responseTimeoutExpiry (ending (some 1) false false)).nlc.frameCounter = 1
      ∧ (ending (some 1) true false).nlc.haltRequested = true)
    ∧ (let s := withSlot (.capturing { incident 0 [] with post := 1, positions := [.pending] })
        (ending none true false)
      (s.irc.slots.get .s1).isCapturing = true ∧ (s.irc.slots.get .s2).isCapturing = false
        ∧ (s.irc.slots.get .s3).isCapturing = false ∧ (s.irc.slots.get .s4).isCapturing = false
        ∧ (after .responseTimeoutExpiry s).irc.slots.get .s1
          = .frozen false { incident 0 [] with post := 1, positions := [.missing] })
    ∧ (let s := withSlots [slotOf .compute none] (within (.compute 0 0 .running 200))
      s.nlc.progress = .compute 0 0 .running 200 ∧ (s.nlc.area s.nlc.inUse).slots.length = 0 + 1
        ∧ s.nlc.records.length = 1)
    ∧ (judged .ok ⟨.healthy, 0, 1⟩).nlc.health.axles.a1.state = .healthy
    ∧ (brake .lost (ending none false false)).dbs.state = .lost
    ∧ (brakeWell (brake .available (ending none false false))).nlc.health.db.state ≠ .lost := by
  decide +kernel
theorem brakeInv_running : BrakeInv running := brakeInv_demanding 0 (by decide)

theorem witness_ParamWriteAndRead :
    Admits running ∧ BrakeInv running ∧ (5 : Byte).toNat = ParamSet.recorder.code
    ∧ ParamSet.link ∈ { running.pst with pendingSets := [.link] }.pendingSets
    ∧ ParamSet.recorder ∉ running.pst.pendingSets
    ∧ fieldCount .recorder < (7 : Byte).toNat + [(1 : Word64), 1].length
    ∧ (7 : Byte).toNat + [(10 : Word64)].length ≤ fieldCount .recorder
    ∧ [(9 : Word64)][0]? = some 9 ∧ inRange .recorder 7 9 = false ∧ inRange .recorder 7 10 = true
    ∧ 6 ≤ (6 : Byte).toNat ∧ 2 ≤ (2 : Byte).toNat
    ∧ (0 : Byte).toNat + (8 : Byte).toNat ≤ fieldCount .recorder
    ∧ fieldCount .recorder < (0 : Byte).toNat + (9 : Byte).toNat :=
  ⟨by unfold Admits; decide +kernel, brakeInv_running, by decide +kernel⟩
theorem witness_ValidationConditions :
    let p := ready.pst.active
    let falling := { p with dbrake := { p.dbrake with points := (0, 0) :: (0, 5) :: p.dbrake.points.drop 2 } }
    (Params.defaults 256).link.framePeriod = none
    ∧ 0 < 7 ∧ (Params.defaults 256).wheel.get 0 = none
    ∧ (falling.dbrake.points.take falling.dbrake.count)[0]? = some (0, 0)
    ∧ (falling.dbrake.points.take falling.dbrake.count)[0 + 1]? = some (0, 5)
    ∧ ((falling.dbrake.points.take falling.dbrake.count).take (0 + 1)).Pairwise (fun x y => x.1 < y.1)
    ∧ (p.dbrake.points.take p.dbrake.count).Pairwise (fun x y => x.1 < y.1)
    ∧ { p.dbrake with heatLow := p.dbrake.heatHigh }.heatLow = p.dbrake.heatHigh := by decide +kernel

/-- A new ring capacity staged. -/
def resized (s : State) : State :=
  { s with pst := { s.pst with staging := { s.pst.staging with
    recorder := { s.pst.staging.recorder with ringCapacity := 2048 } } } }

theorem witness_ParamCommitActivatesOrPends :
    Admits ready ∧ (6 : Byte) ∈ [(6 : Byte)] ∧ ¬ [(5 : Byte), 5].Nodup
    ∧ [ParamSet.blend, .link].Nodup ∧ [ParamSet.dbrake].Nodup
    ∧ ParamSet.link ∈ { running.pst with pendingSets := [.link] }.pendingSets
    ∧ (resized running).pst.staging.recorder.ringCapacity
      ≠ (resized running).pst.active.recorder.ringCapacity
    ∧ (resized running).mdc.mode = .running ∧ (resized ready).mdc.mode = .ready
    ∧ ((withSlot (.capturing (incident 5 [.pending])) (resized ready)).irc.slots.get .s1).isCapturing = true
    ∧ validate .link State.reset.pst.staging = some (0, 1)
    ∧ (∀ x ∈ ParamSet.all, validate x ready.pst.staging = none)
    ∧ ready.nlc.link = .idle ∧ running.nlc.link ≠ .idle := by
  unfold Admits; decide +kernel
/-- A slot FROZEN with an incident under a number. -/
def frozenSlot (prot : Bool) (number : Nat) : Slot := .frozen prot { incident 5 [] with number := number }

/-- No slot FREE: slots 1 and 4 protected, and slot 3 the unprotected one opened before slot 2's. -/
def mixed : State :=
  { ready with irc := { ready.irc with
    lastIncident := 9
    slots := ⟨frozenSlot true 1, frozenSlot false 9, frozenSlot false 4294967295, frozenSlot true 8⟩ } }

/-- Every slot protected. -/
def guarded : State :=
  { ready with irc := { ready.irc with slots := .fill (frozenSlot true 1) } }

theorem witness_MarkRaisesHostMark :
    Admits ready
    ∧ (EventKind.hostMark.mem ready.pst.active.recorder.triggers = true
      ∧ copying.irc.slots.get .s1 = .capturing (incident 5 [.pending])
      ∧ EventKind.hostMark.mem { ready.hlp with noticeMask := EventKind.hostMark.bit }.noticeMask = true
      ∧ waitingOf .notice ready.hlp < 8
      ∧ waitingOf .notice { ready.hlp with waiting := List.replicate 8 ⟨.notice, 0x40, 0, []⟩ } = 8)
    ∧ (∀ j, j ≠ .s1 → (copying.irc.slots.get j).isCapturing = false)
    ∧ (∀ k, (ready.irc.slots.get k).isCapturing = false ∧ ready.irc.slots.get k = .free)
    ∧ (withSlot (.frozen false (incident 5 [])) ready).irc.slots.get .s2 = .free
    ∧ (∀ j : SlotId, j.number < SlotId.s2.number →
        (withSlot (.frozen false (incident 5 [])) ready).irc.slots.get j ≠ .free)
    ∧ (∀ k, (mixed.irc.slots.get k).isCapturing = false ∧ mixed.irc.slots.get k ≠ .free)
    ∧ (mixed.irc.slots.get .s3 = frozenSlot false 4294967295
      ∧ mixed.irc.slots.get .s2 = frozenSlot false 9
      ∧ (9 + 4294967295 - 9) % 4294967295 < (9 + 4294967295 - 4294967295) % 4294967295
      ∧ (after (.mark 7 1) mixed).irc.slots.s2 = frozenSlot false 9
      ∧ (after (.mark 7 1) mixed).irc.lastIncident = 10)
    ∧ ∀ k, guarded.irc.slots.get k = frozenSlot true 1 := by
  refine ⟨by unfold Admits; decide +kernel, by decide +kernel, ?_, ?_, by decide +kernel, ?_, ?_,
    by decide +kernel, ?_⟩
  all_goals intro k; cases k <;> decide +kernel
theorem witness_IncidentSlotRequests :
    Admits ready ∧ (0 : Byte).toNat = 0 ∧ 4 < (5 : Byte).toNat ∧ (4 : Byte).toNat = SlotId.s4.number
    ∧ (1 : Byte).toNat = SlotId.s1.number ∧ Admits (withSlot (.frozen true (incident 5 [])) ready)
    ∧ (withSlot (.frozen true (incident 5 [])) ready).irc.slots.get .s1 = .frozen true (incident 5 [])
    ∧ (withSlot (.capturing (incident 5 [.pending])) ready).irc.slots.get .s1
      = .capturing (incident 5 [.pending])
    ∧ ready.irc.slots.get .s4 = .free := by
  unfold Admits; decide +kernel
theorem witness_ClearsAndTimeWrap :
    (Admits copying ∧ (copying.irc.slots.get .s1).isCapturing = true ∧ Admits ready)
    ∧ ∀ k, (ready.irc.slots.get k).isCapturing = false :=
  ⟨by unfold Admits; decide +kernel, by intro k; cases k <;> decide +kernel⟩

/-- Whether Burst Yield is on, and whether a snapshot waits. -/
def bursting (yield waits : Bool) : State :=
  { free reading with
    pst := { ready.pst with active := { ready.pst.active with
      recorder := { ready.pst.active.recorder with burstYield := yield } } }
    rma := { (free reading).rma with capture := if waits then [snap 7] else [] } }

/-- A read of a source from a start on, in the queue of a part with nothing else to do. -/
def asking (src : ReadSource) (start : Option Nat) (s : State) : State :=
  { free s with hlp := { s.hlp with
    requests := [⟨9, .read { logRead 1 none with source := src, start := start }⟩] } }

theorem witness_MemoryIsGrantedInOrder :
    (reading.rma.memory ≠ none ∧ (bursting false true).rma.memory = none
      ∧ (bursting false true).rma.burst = some ⟨0, 8, false⟩
      ∧ (bursting false true).pst.active.recorder.burstYield = false
      ∧ headRead (bursting false true).hlp.requests = some (9, logRead 2 (some ⟨1, 0, [], 0⟩))
      ∧ nextItem (logRead 2 (some ⟨1, 0, [], 0⟩)) ⟨1, 0, [], 0⟩ (bursting false true).irc
        = some ⟨0, 0, .event (entry 1)⟩
      ∧ (bursting true false).rma.capture = [] ∧ (bursting true true).rma.capture ≠ []
      ∧ (bursting true true).pst.active.recorder.burstYield = true
      ∧ (⟨0, 8, true⟩ : Burst).yielded = true
      ∧ { (bursting true false).rma with logBuf := [entry 3] }.logBuf ≠ [])
    ∧ (let s := { bursting false true with hlp := ready.hlp }
      s.rma.memory = none ∧ s.rma.burst = some ⟨0, 8, false⟩ ∧ headRead s.hlp.requests = none
        ∧ s.pst.active.recorder.burstYield = false)
    ∧ (let s := { bursting true false with hlp := (asking .log none (withLog ready)).hlp }
      s.rma.memory = none ∧ s.rma.burst = some ⟨0, 8, false⟩ ∧ s.rma.capture = []
        ∧ s.rma.gap = none ∧ s.rma.logBuf = []
        ∧ headRead s.hlp.requests = some (9, logRead 1 none) ∧ (logRead 1 none).service = none)
    ∧ (let s := { State.reset with rma := { State.reset.rma with memory := none } }
      s.rma.burst = none ∧ s.rma.gap = none ∧ s.rma.capture = [] ∧ s.rma.logBuf ≠ [])
    ∧ ((copyWork copying.irc).isSome = true ∧ (copyWork (free ready).irc).isSome = false
      ∧ ({ free ready with rma := { (free ready).rma with scrubPos := 0 } }.rma.scrubPos * 60 * 1000 / 4096
        ≤ (free ready).rma.passTimer)
      ∧ ¬ (free ready).rma.scrubPos * 60 * 1000 / 4096 ≤ (free ready).rma.passTimer
      ∧ (free ready).hlp.requests = [])
    ∧ (let s := asking .ring (some 5) (withRing ready)
      s.rma.memory = none ∧ s.rma.burst = none ∧ s.rma.gap = none ∧ s.rma.capture = []
        ∧ s.rma.logBuf = [] ∧ (copyWork s.irc).isSome = false
        ∧ ¬ s.rma.scrubPos * 60 * 1000 / 4096 ≤ s.rma.passTimer ∧ s.sys.resetAsked = false
        ∧ headRead s.hlp.requests = some (9, { logRead 1 none with source := .ring, start := some 5 })
        ∧ s.irc.ring.head? = some (.snapshot (snap 5)) ∧ s.irc.ring.getLast? = some (.snapshot (snap 6))
        ∧ s.irc.ring[0]? = some (.snapshot (snap 5)) ∧ s.rma.ringCursor = none)
    ∧ (let s := asking (.slot .s1) none (withSlot (.frozen false (incident 5 [.missing])) ready)
      s.irc.slots.get .s1 = .frozen false (incident 5 [.missing])
        ∧ (incident 5 [.missing]).firstNumber = 5 ∧ (incident 5 [.missing]).positions[0]? = some .missing
        ∧ s.rma.slotCursors.get .s1 = none)
    ∧ (let s := asking .log none (withLog ready)
      s.irc.log.head? = some (entry 1) ∧ s.irc.log.getLast? = some (entry 2)
        ∧ s.irc.log[0]? = some (entry 1) ∧ s.rma.logCursor = none)
    ∧ (let s := { free reading with irc := ready.irc }
      nextItem (logRead 2 (some ⟨1, 0, [], 0⟩)) ⟨1, 0, [], 0⟩ s.irc = none)
    ∧ (ready.irc.ring = [] ∧ ready.irc.highSnap = 0 ∧ ready.irc.log = [] ∧ ready.irc.highLog = 0) :=
  ⟨by decide +kernel, by decide +kernel, by decide +kernel, by decide +kernel⟩
theorem witness_ReadsJoinTheQueue :
    (Admits reading ∧ reading.rma.memory ≠ none
      ∧ ¬ (2 : Byte).toNat < 2 ∧ ¬ (0x14 : Byte).toNat % 16 < 4 ∧ ¬ (64 : Byte).toNat < 64
      ∧ ¬ (5 : Byte).toNat ≤ 4
      ∧ (1 : Byte).toNat < 2 ∧ (0xF3 : Byte).toNat % 16 < 4 ∧ (63 : Byte).toNat < 64
      ∧ (4 : Byte).toNat = SlotId.s4.number
      ∧ (withSlot (.frozen false (incident 5 [])) reading).irc.slots.get .s1 = .frozen false (incident 5 [])
      ∧ 1 ≤ (16 : Byte).toNat ∧ (16 : Byte).toNat ≤ 16 ∧ 16 < (17 : Byte).toNat
      ∧ computing.nlc.progress = .compute 1 0 .running 200)
    ∧ (∀ p i, reading.irc.slots.get .s1 ≠ .frozen p i)
    ∧ (∀ slot at' m e, reading.nlc.progress ≠ .compute slot at' m e) :=
  ⟨by unfold Admits; decide +kernel, (fun _ _ h => nomatch h), (fun _ _ _ _ h => nomatch h)⟩

/-- A snapshot write under way, with the ring, the gap record and the buffer as given. -/
def writing (ring : List RingEntry) (gap : Option (Nat × Nat)) (l : List Snapshot) : State :=
  let s := busyWith .snapshotWrite ready
  { s with irc := { s.irc with ring := ring }, rma := { s.rma with gap := gap, capture := l } }

theorem witness_WritesCompleteInRingAndLog :
    (∀ x, ready.rma.memory ≠ some ⟨.snapshotWrite, x⟩)
    ∧ (∀ x, (busyWith .copy ready).rma.memory ≠ some ⟨.logWrite, x⟩)
    ∧ (writing [] (some (3, 4)) []).rma.memory = some ⟨.snapshotWrite, 50⟩
    ∧ (writing [] (some (3, 4)) []).rma.gap = some (3, 4)
    ∧ (∀ l z y, (writing [] (some (3, 4)) []).irc.ring = l ++ [.gap z y] → 3 ≠ y + 1)
    ∧ (writing [] none [snap 7]).rma.gap = none ∧ (writing [] none [snap 7]).rma.capture = snap 7 :: []
    ∧ (writing [.gap 1 2] (some (3, 4)) []).irc.ring = [] ++ [.gap 1 2] ∧ 3 = 2 + 1
    ∧ (let s := withSlot (.capturing (incident 5 [.pending, .pending]))
        (writing [.gap 1 2] (some (3, 4)) [])
      s.irc.slots.get .s1 = .capturing (incident 5 [.pending, .pending])
        ∧ (s.irc.slots.get .s2).isCapturing = false ∧ (s.irc.slots.get .s3).isCapturing = false
        ∧ (s.irc.slots.get .s4).isCapturing = false
        ∧ (after .snapshotWriteDone s).irc.slots.get .s1
          = .capturing (incident 5 [.missing, .pending]))
    ∧ State.reset.rma.memory = some ⟨.logWrite, 4⟩ ∧ State.reset.rma.logBuf = powerOnEntry :: []
    ∧ State.reset.irc.log.length < 1024
    ∧ (let c := { ready.irc with log := List.replicate 1024 (entry 1), lastLog := 4294967278 }
      1024 ≤ c.log.length ∧ c.lastLog + 16 < 4294967295 ∧ c.overwrites = 0
        ∧ c.log.head? = some (entry 1)) :=
  ⟨(fun x h => by cases h), (fun x h => by cases h), by decide +kernel,
    by decide +kernel, (fun l z y h => by cases l <;> simp [writing] at h), by decide +kernel⟩
/-- A damage mark on the source's place, and a stale one on the slot's second place. -/
def markedCopy : State := { copying with irc := { copying.irc with marks := ⟨[0], [], ⟨[1], [], [], []⟩⟩ } }

theorem witness_CopyFillsAPosition :
    RecordInv copying
    ∧ (ready.sys.phase = .live ∧ copying.rma.memory = some ⟨.copy, 50⟩
      ∧ copying.irc.slots.get .s1 = .capturing (incident 5 [.pending])
      ∧ (incident 5 [.pending]).positions = [] ++ .pending :: []
      ∧ ([] : List Position).length < 1024
      ∧ copying.irc.ring[0]? = some (.snapshot (snap 5))
      ∧ ((snap 5).number : Int) = (incident 5 [.pending]).firstNumber + ([] : List Position).length
      ∧ (copying.irc.ringPlace + 0) % copying.irc.ringCapacity ∉ copying.irc.marks.ring
      ∧ (markedCopy.irc.ringPlace + 0) % markedCopy.irc.ringCapacity ∈ markedCopy.irc.marks.ring
      ∧ (after (.copyDone [] none) markedCopy).irc.marks.slots.s1 = [0, 1]
      ∧ missingCount (incident 5 [.copied (snap 5)]) = 0
      ∧ 0 < missingCount (incident 6 [.missing, .copied (snap 6)]))
    ∧ (∀ x, ready.rma.memory ≠ some ⟨.copy, x⟩)
    ∧ (∀ j e, j < 0 → copying.irc.ring[j]? = some e →
        ¬ (e.first ≤ (snap 5).number ∧ (snap 5).number ≤ e.last)) :=
  ⟨recordInv_copying, by decide +kernel, (fun x h => by cases h),
    fun _ _ h => absurd h (Nat.not_lt_zero _)⟩
theorem witness_ReadItemJoinsTheReply :
    (let r := logRead 2 (some ⟨1, 0, [], 0⟩)
      let x : Reading := ⟨⟨0, 0, .event (entry 1)⟩, false, some ⟨1, 1, .event (entry 2)⟩⟩
      reading.sys.phase = .live ∧ reading.sys.resetAsked = false
      ∧ reading.rma.memory = some ⟨.readItem, 50⟩ ∧ reading.rma.reading = some x
      ∧ headRead reading.hlp.requests = some (9, r) ∧ r.service = some ⟨1, 0, [], 0⟩
      ∧ x.item.place < 1024 ∧ reading.irc.lastLog + 4 * [(⟨0, [0]⟩ : BlockFault)].length < 4294967296
      ∧ afterItem r ⟨1, 2, [], 0⟩ x reading.irc = .inr 2
      ∧ afterItem r ⟨1, 1, [], 0⟩ x reading.irc = .inl ⟨2, 1, [], 0⟩
      ∧ afterItem r ⟨1, 1, List.replicate 225 0, 0⟩ x reading.irc = .inr 2
      ∧ reading.rma.burst = some ⟨0, 8, false⟩ ∧ r.source = .log
      ∧ reading.irc.log[1]? = some (entry 2) ∧ reading.irc.log[1 + 1]? = none
      ∧ successor r ⟨1, 0, [], 0⟩ x.item reading.irc = x.next
      ∧ (withSlot (.frozen false (incident 5 [])) ready).irc.slots.get .s1 = .frozen false (incident 5 []))
    ∧ (let r := { logRead 2 none with source := .ring, mask := 0x3F }
      let c := (withRing ready).irc
      let sv : Service := ⟨5, 0, [], 0⟩
      let x : Reading := ⟨⟨0, 0, .snapshot (snap 5)⟩, false, some ⟨1, 1, .snapshot (snap 6)⟩⟩
      c.ring[0]? = some (.snapshot (snap 5)) ∧ c.ring[0 + r.stride]? = some (.snapshot (snap 6))
      ∧ c.ring[1 + r.stride]? = none ∧ (snap 5).number = 5 ∧ snapshotSize r.mask = 102
      ∧ nextItem r sv c = some x.item ∧ successor r sv x.item c = x.next
      ∧ afterItem r ⟨5, 1, List.replicate 142 0, 0⟩ x c = .inl ⟨6, 1, List.replicate 142 0, 0⟩
      ∧ afterItem r ⟨5, 1, List.replicate 143 0, 0⟩ x c = .inr 6 ∧ afterItem r ⟨5, 2, [], 0⟩ x c = .inr 6)
    ∧ (let i := incident 6 [.copied (snap 5), .missing]
      let c := (withSlot (.frozen true i) ready).irc
      let r := { logRead 2 none with source := .slot .s1 }
      let x : Reading := ⟨⟨0, 0, .snapshot (snap 5)⟩, false, some ⟨1, 1, .missing 6⟩⟩
      c.slots.get .s1 = .frozen true i ∧ i.firstNumber = 5 ∧ i.number = 1
      ∧ i.positions[0]? = some (.copied (snap 5)) ∧ i.positions[0 + r.stride]? = some .missing
      ∧ i.positions[1 + r.stride]? = none
      ∧ nextItem r ⟨5, 0, [], 1⟩ c = some x.item ∧ successor r ⟨5, 0, [], 1⟩ x.item c = x.next
      ∧ afterItem r ⟨5, 1, List.replicate 238 0, 1⟩ x c = .inl ⟨6, 1, List.replicate 238 0, 1⟩
      ∧ afterItem r ⟨5, 1, List.replicate 239 0, 1⟩ x c = .inr 6)
    ∧ (∀ x, ready.rma.memory ≠ some ⟨.readItem, x⟩)
    ∧ (∀ j d, j < 1 → reading.irc.log[j]? = some d → d.seq ≠ (entry 2).seq) := by
  refine ⟨by decide +kernel, by decide +kernel, by decide +kernel, (fun x h => by cases h), ?_⟩
  intro j d h e
  obtain rfl : j = 0 := by omega
  obtain rfl : entry 1 = d := Option.some.inj e
  decide
theorem witness_ScrubAndReadTimeout :
    ((busyWith .scrub ready).rma.memory = some ⟨.scrub, 50⟩
      ∧ { ready.rma with scrubPos := 4095 }.scrubPos = 4095 ∧ ¬ 4095 < 4095 ∧ 4094 < 4095
      ∧ { ready.rma with lateRaised := true }.lateRaised = true ∧ ready.rma.lateRaised = false
      ∧ ready.irc.lastLog + 16 < 4294967296 ∧ [(0 : Nat)] ≠ [] ∧ (0 : Nat) < 1
      ∧ reading.rma.memory ≠ none ∧ reading.sys.resetAsked = false)
    ∧ (∀ x, ready.rma.memory ≠ some ⟨.scrub, x⟩)
    ∧ (∀ w ∈ reading.hlp.requests, ∀ r, w.body = .read r → r.service.isSome = true)
    ∧ (let l : List Waiting := reading.hlp.requests ++ ⟨8, .read (logRead 1 none)⟩ :: []
      l = reading.hlp.requests ++ ⟨8, .read (logRead 1 none)⟩ :: [] ∧ (logRead 1 none).service = none)
    ∧ (∀ w ∈ ([] : List Waiting) ++ [], w.body = .axles)
    ∧ ∀ block, Config.blockRegion block = .directory ∨ Config.blockRegion block = .spare
      ∨ Config.blockRegion block = .ring ∨ Config.blockRegion block = .log
      ∨ ∃ k, Config.blockRegion block = .slot k := by
  refine ⟨by decide +kernel, (fun x h => by cases h), ?_, ⟨rfl, rfl⟩, (fun _ h => nomatch h), ?_⟩
  · intro w hw r hr
    obtain rfl := List.mem_singleton.mp hw
    obtain rfl := WaitFor.read.inj hr
    rfl
  · intro block
    cases Config.blockRegion block <;> simp
theorem witness_StartRunsTheLink :
    Admits ready ∧ LinkInv ready ∧ ready.pst.linkOnce = true ∧ ready.pst.wheelOnce = true
    ∧ ready.mdc.mode = .ready ∧ (withMode .stopped ready).mdc.mode = .stopped
    ∧ (ready.nlc.area ready.nlc.inUse).validated = true
    ∧ ready.pst.active.link.startSource = .timer
    ∧ (startedBy .sync false ready).pst.active.link.startSource ≠ .timer
    ∧ Admits State.reset ∧ State.reset.pst.linkOnce = false
    ∧ { ready.pst with wheelOnce := false }.wheelOnce = false
    ∧ running.mdc.mode ≠ .ready ∧ running.mdc.mode ≠ .stopped
    ∧ ((areaA []).nlc.area .a).validated = false :=
  ⟨by unfold Admits; decide +kernel, linkInv_ready, by unfold Admits; decide +kernel⟩
theorem witness_StopHaltsTheLink :
    Admits ready ∧ ready.mdc.mode ≠ .running ∧ ready.mdc.mode ≠ .unparking
    ∧ Admits computing ∧ computing.mdc.mode = .running ∧ computing.nlc.link = .inFrame
    ∧ Admits (withMode .unparking running) ∧ (withMode .unparking running).mdc.mode = .unparking
    ∧ running.nlc.link ≠ .inFrame ∧ { running.pst with pendingSets := [.blend] }.pendingSets ≠ []
    ∧ (short 0 running).ble.shortfall = true ∧ switching.nlc.selected ≠ switching.nlc.inUse
    ∧ (let s := withSlot (.capturing (incident 7 [.pending, .pending])) (withRing running)
      s.irc.slots.get .s1 = .capturing (incident 7 [.pending, .pending]) ∧ s.irc.lastSnap = 6
        ∧ (s.irc.slots.get .s2).isCapturing = false ∧ (s.irc.slots.get .s3).isCapturing = false
        ∧ (s.irc.slots.get .s4).isCapturing = false
        ∧ (after (.stop 7) s).irc.slots.get .s1
          = .capturing (incident 7 [.pending, .missing])) := by
  unfold Admits; decide +kernel
theorem witness_ParkEntersParking :
    Admits running ∧ running.mdc.mode = .running ∧ running.nlc.haltRequested = false
    ∧ running.diu.latch = none ∧ running.asu.standstill = true
    ∧ { running.ble with shortfall := true }.shortfall = true
    ∧ (slide .a1 .dump (brake .cool running)).dbs.state = .cool
    ∧ ready.mdc.mode ≠ .running ∧ { running.nlc with haltRequested := true }.haltRequested = true
    ∧ (latched running).diu.latch.isSome = true ∧ (moving .a1 50 running).asu.standstill = false := by
  unfold Admits; decide +kernel
theorem witness_ParkingEnds :
    Admits (withMode .parking running) ∧ (withMode .parking running).mdc.mode = .parking
    ∧ (withMode .parked running).mdc.mode = .parked
    ∧ Admits running ∧ running.mdc.mode ≠ .parking ∧ running.mdc.mode ≠ .parked := by
  unfold Admits; decide +kernel
theorem witness_ResetsBegin :
    Admits ready ∧ (inPhase .off ready).sys.phase = .off
    ∧ (inPhase (.inReset .input) ready).sys.phase ≠ .live
    ∧ ready.sys.phase = .live ∧ { ready.sys with resetReplySent := true }.resetReplySent = true
    ∧ ready.sys.resetReplySent = false ∧ (free ready).rma.memory = none := by
  unfold Admits; decide +kernel
theorem witness_ResetEndTakesResetValues :
    (∀ c, ready.sys.phase ≠ .inReset c)
    ∧ (inPhase (.inReset .powerOn) ready).sys.phase = .inReset .powerOn
    ∧ (inPhase (.inReset .input) (withSlot (.frozen true (incident 5 [])) ready)).irc.slots.get .s1
      = .frozen true (incident 5 [])
    ∧ { ready.irc with highLog := 4294967279 }.highLog + 16 < 4294967296
    ∧ (inPhase (.inReset .request) copying).irc.slots.get .s1 = .capturing (incident 5 [.pending])
    ∧ (copying.irc.slots.get .s2).isCapturing = false ∧ (copying.irc.slots.get .s3).isCapturing = false
    ∧ (copying.irc.slots.get .s4).isCapturing = false ∧ ready.irc.slots.get .s4 = .free :=
  ⟨(fun _ h => nomatch h), by decide +kernel⟩

end Sys2Proof.Tests
end

section
/-! SUPPORT. What EMERGENCY_RESET answers, and that behind the DIU's rate step no block's work at a COMPUTE
moves D_eff. -/

namespace Sys2Proof.Machine

/-! ## The work at a COMPUTE behind the DIU leaves the DIU as it stands -/

/-- What the work for every axle keeps, the work for all six keeps. -/
theorem forAxles_keeps {α : Type} {f : Axle → State → State} (π : State → α)
    (h : ∀ a s, π (f a s) = π s) (s : State) : π (forAxles f s) = π s := by
  simp only [forAxles, h]

@[simp] theorem computeAsu_diu (s : State) : (computeAsu s).diu = s.diu := by
  unfold computeAsu; dsimp only; split
  · exact raiseEvent_diu _ _ _ _ _
  · rfl

@[simp] theorem dropAxle_diu (a : Axle) (s : State) : (dropAxle a s).diu = s.diu := rfl

@[simp] theorem addCause_diu (a : Axle) (c : IsoCause) (s : State) : (addCause a c s).diu = s.diu := by
  unfold addCause; dsimp only; split
  · rfl
  · simp

@[simp] theorem removeCause_diu (a : Axle) (c : IsoCause) (s : State) :
    (removeCause a c s).diu = s.diu := rfl

@[simp] theorem wscSensor_diu (a : Axle) (s : State) : (wscSensor a s).diu = s.diu := by
  unfold wscSensor; dsimp only; split
  · rfl
  · split
    · simp
    · rfl

@[simp] theorem wscRestore_diu (a : Axle) (s : State) : (wscRestore a s).diu = s.diu := by
  unfold wscRestore; split
  · simp
  · rfl

@[simp] theorem wscEpisode_diu (a : Axle) (s : State) : (wscEpisode a s).diu = s.diu := by
  unfold wscEpisode; dsimp only; split
  · split
    · simp
    · rfl
  · rfl

@[simp] theorem wscLock_diu (a : Axle) (s : State) : (wscLock a s).diu = s.diu := by
  unfold wscLock; dsimp only; split
  · rfl
  · split
    · rfl
    · split
      · simp
      · rfl

@[simp] theorem slideOnset_diu (a : Axle) (s : State) : (slideOnset a s).diu = s.diu :=
  raiseEvent_diu _ _ _ _ _

@[simp] theorem reliefSlides_diu (a : Axle) (s : State) : (reliefSlides a s).diu = s.diu := by
  unfold reliefSlides; dsimp only; split
  · simp
  · rfl

@[simp] theorem recoverGoesOn_diu (a : Axle) (s : State) : (recoverGoesOn a s).diu = s.diu := by
  unfold recoverGoesOn; dsimp only; split
  · simp
  · rfl

@[simp] theorem wscMachine_diu (a : Axle) (s : State) : (wscMachine a s).diu = s.diu := by
  unfold wscMachine; dsimp only
  cases (s.wsc.get a).slide with
  | isolated => rfl
  | normal => dsimp only; split <;> simp
  | relief =>
    dsimp only; split
    · rfl
    · split <;> simp
  | dump => dsimp only; split <;> rfl
  | recover => dsimp only; split <;> simp

@[simp] theorem wscCeiling_diu (a : Axle) (s : State) : (wscCeiling a s).diu = s.diu := by
  unfold wscCeiling; split <;> rfl

@[simp] theorem wscAxle_diu (a : Axle) (s : State) : (wscAxle a s).diu = s.diu := by
  unfold wscAxle; dsimp only; split
  · simp
  · split <;> simp

@[simp] theorem dbsEnable_diu (s : State) : (dbsEnable s).diu = s.diu := by
  unfold dbsEnable; split <;> rfl

@[simp] theorem dbsCool_diu (s : State) : (dbsCool s).diu = s.diu := by
  unfold dbsCool; dsimp only
  cases s.dbs.state with
  | available => dsimp only; split <;> simp
  | cool => dsimp only; split <;> simp
  | off | exciting | lost | rest => rfl

@[simp] theorem computeDbs_diu (s : State) : (computeDbs s).diu = s.diu := by
  simp [computeDbs, dbsCapacity, dbsHeat]

@[simp] theorem shortfallOff_diu (d : Option Int) (s : State) : (shortfallOff d s).diu = s.diu :=
  raiseEvent_diu _ _ _ _ _

@[simp] theorem stopShortfall_diu (s : State) : (stopShortfall s).diu = s.diu := by
  unfold stopShortfall; split <;> simp

@[simp] theorem resumeShortfall_diu (s : State) : (resumeShortfall s).diu = s.diu := by
  unfold resumeShortfall; split <;> simp

@[simp] theorem sustain_diu (d : Int) (s : State) : (sustain d s).diu = s.diu := by
  unfold sustain; dsimp only; split
  · simp
  · rfl

@[simp] theorem judgeShortfall_diu (s : State) : (judgeShortfall s).diu = s.diu := by
  unfold judgeShortfall; dsimp only; split <;> simp

@[simp] theorem blendOutputs_diu (s : State) : (blendOutputs s).diu = s.diu := by
  unfold blendOutputs; split
  · split
    · simp [emergencyOutputs]
    · simp [serviceOutputs]
  · rfl

@[simp] theorem computeBle_diu (s : State) : (computeBle s).diu = s.diu := by simp [computeBle]

/-! ## The MDC's work at a COMPUTE: entering RUNNING restarts the DIU's times and keeps its demands -/

@[simp] theorem enterParked_diu (time : Nat) (byTimeout : Bool) (s : State) :
    (enterParked time byTimeout s).diu = s.diu := raiseEvent_diu _ _ _ _ _

@[simp] theorem parkTest_diu (s : State) : (parkTest s).diu = s.diu := by
  unfold parkTest; dsimp only; split
  · simp
  · rfl

@[simp] theorem rollAxle_diu (a : Axle) (s : State) : (rollAxle a s).diu = s.diu := by
  unfold rollAxle; dsimp only; split
  · split
    · simp [raiseTargets]
    · rfl
  · rfl

@[simp] theorem unparkTest_dEff (s : State) : (unparkTest s).diu.dEff = s.diu.dEff := by
  unfold unparkTest
  cases s.nlc.frameChoice with
  | frame => simp [enterRunning]
  | park => rfl

@[simp] theorem computeMdc_dEff (s : State) : (computeMdc s).diu.dEff = s.diu.dEff := by
  unfold computeMdc mdcTests
  cases s.mdc.mode with
  | parking => simp
  | parked => simp [forAxles_keeps State.diu rollAxle_diu]
  | unparking => simp
  | unconfigured | ready | running | stopped => rfl

/-- The effective demand a COMPUTE leaves is that of the DIU's rate step. -/
theorem computeWork_dEff (s : State) : (computeWork s).diu.dEff = (computeDiu s).diu.dEff := by
  simp [computeWork, forAxles_keeps State.diu wscAxle_diu]

/-- R3: with the latch clear the rate step is taken in RUNNING and in no other mode. -/
theorem computeDiu_dEff_of_clear {s : State} (h : s.diu.latch = none) :
    (computeDiu s).diu.dEff = if s.mdc.mode = .running
      then rateLimited s.pst.active.blend.applyRate s.pst.active.blend.releaseRate s.nlc.period
        s.diu.dReq s.diu.dEff
      else s.diu.dEff := by
  by_cases hm : s.mdc.mode = .running <;> simp [computeDiu, h, hm]

/-- R3: from 0 the rate step can only apply. -/
theorem rateLimited_from_zero (apply release tf dReq : Nat) :
    rateLimited apply release tf dReq 0 = min dReq (rateStep apply tf) := by
  unfold rateLimited
  rcases Nat.eq_zero_or_pos dReq with rfl | h
  · simp
  · simp [h]

/-! ## EMERGENCY_RESET -/

theorem exec_emergencyReset (tag : Byte) (s : State) : exec (.emergencyReset tag) s
    = live (request 0x02 tag true true emergencyResetBody) s := rfl

theorem emergencyResetBody_clear {s : State} (h : s.diu.latch = none) :
    emergencyResetBody s = (s, .reply [0, 0]) := by
  simp only [emergencyResetBody, h]; rfl

theorem emergencyResetBody_moving {s : State} (h : s.diu.latch.isSome = true)
    (hst : s.asu.standstill = false) : emergencyResetBody s = (s, .reply [11, 1]) := by
  obtain ⟨c, hc⟩ := Option.isSome_iff_exists.mp h
  simp only [emergencyResetBody, hc, hst]; rfl

theorem emergencyResetBody_input {s : State} (h : s.diu.latch.isSome = true)
    (hst : s.asu.standstill = true) (hin : s.diu.emergInput = true) :
    emergencyResetBody s = (s, .reply [9, 2]) := by
  obtain ⟨c, hc⟩ := Option.isSome_iff_exists.mp h
  simp only [emergencyResetBody, hc, hst, hin]; rfl

theorem emergencyResetBody_flag {s : State} (h : s.diu.latch.isSome = true)
    (hst : s.asu.standstill = true) (hin : s.diu.emergInput = false)
    (hfl : s.diu.demandEmergency = true) : emergencyResetBody s = (s, .reply [9, 3]) := by
  obtain ⟨c, hc⟩ := Option.isSome_iff_exists.mp h
  simp only [emergencyResetBody, hc, hst, hin, hfl]; rfl

theorem emergencyResetBody_clears {s : State} {c : LatchCause} (h : s.diu.latch = some c)
    (hst : s.asu.standstill = true) (hin : s.diu.emergInput = false)
    (hfl : s.diu.demandEmergency = false) :
    emergencyResetBody s = (clearLatch c s, .reply [1, 0]) := by
  simp only [emergencyResetBody, h, hst, hin, hfl]; rfl

theorem raiseEvent_raises (k : EventKind) (x : Subject) (v w : Option Int) (s : State) :
    raised k x v w s (raiseEvent k x v w s) := raised_of_later (Nat.zero_le 11) (.refl _)

/-- R13, R34: the latch and D_eff cleared, the mark set in RUNNING, and EMERGENCY_RESET raised. -/
theorem clearLatch_eq (c : LatchCause) (s : State) :
    clearLatch c s = raiseEvent .emergencyReset .absent (some c.code) none { s with
      diu := { s.diu with latch := none, dEff := 0 }
      ble := { s.ble with released := s.ble.released || s.mdc.mode == .running } } := by
  rw [clearLatch, markReleased_eq]; rfl

theorem clearLatch_same (c : LatchCause) (s : State) :
    SameBrakes { s with
      diu := { s.diu with latch := none, dEff := 0 }
      ble := { s.ble with released := s.ble.released || s.mdc.mode == .running } }
      (clearLatch c s) := by
  rw [clearLatch_eq]; exact raiseEvent_same _ _ _ _ _

theorem clearLatch_raises (c : LatchCause) (s : State) :
    raised .emergencyReset .absent (some c.code) none s (clearLatch c s) := by
  rw [clearLatch_eq]
  refine raised_congr ?_ (raiseEvent_raises _ _ _ _ _)
  rfl

/-- An event raised stays raised where the record memory and the latched set stand. -/
theorem raised.of_sameMemory {k : EventKind} {x : Subject} {v w : Option Int} {s t u : State}
    (h : raised k x v w s t) (hu : SameMemory t u) : raised k x v w s u := by
  obtain ⟨hlog, hlatched⟩ := h
  exact ⟨by rwa [hu.logBuf], by rwa [isLatched, hu.latched]⟩

/-- R3, R13: the COMPUTE after the latch was cleared takes its apply step from 0 in RUNNING, and none in
the other modes. -/
theorem computeWork_dEff_of_cleared {s : State} (hl : s.diu.latch = none) (h0 : s.diu.dEff = 0) :
    (computeWork s).diu.dEff = if s.mdc.mode = .running
      then min s.diu.dReq (max 1 (s.pst.active.blend.applyRate * s.nlc.period / 1000)) else 0 := by
  rw [computeWork_dEff, computeDiu_dEff_of_clear hl, h0, rateLimited_from_zero]
  rfl

/-- An EMERGENCY_RESET that R12 lets through. -/
theorem exec_emergencyReset_clears {s : State} {c : LatchCause} (tag : Byte) (h : Admits s)
    (hl : s.diu.latch = some c) (hst : s.asu.standstill = true) (hin : s.diu.emergInput = false)
    (hfl : s.diu.demandEmergency = false) : ∃ t, exec (.emergencyReset tag) s = .next t
      ∧ SameBrakes { s with
          diu := { s.diu with latch := none, dEff := 0 }
          ble := { s.ble with released := s.ble.released || s.mdc.mode == .running } } t
      ∧ replied 0x02 tag [1, 0] t
      ∧ raised .emergencyReset .absent (some c.code) none s t := by
  obtain ⟨t, hexec, hreply, hmem⟩ :=
    request_completes h (tag := tag) (kind := 0x02) (emergencyResetBody_clears hl hst hin hfl)
  exact ⟨t, hexec, (clearLatch_same c s).trans hmem.toSameBrakes, hreply,
    (clearLatch_raises c s).of_sameMemory hmem⟩

/-- An EMERGENCY_RESET whose body leaves the state changes nothing beside its reply. -/
theorem exec_emergencyReset_answers {s : State} {p : List Byte} (tag : Byte) (h : Admits s)
    (hb : emergencyResetBody s = (s, .reply p)) :
    ∃ t, exec (.emergencyReset tag) s = .next t ∧ SameMemory s t ∧ replied 0x02 tag p t := by
  obtain ⟨t, hexec, hreply, hmem⟩ := request_completes h (tag := tag) (kind := 0x02) hb
  exact ⟨t, hexec, hmem, hreply⟩

/-- Settles O16: EMERGENCY_RESET case by case of its body; the next COMPUTE by the frame of the blocks'
work behind the rate step. -/
theorem emergencyResetClearsTheLatch : Obligations.EmergencyResetClearsTheLatch := by
  intro tag s hadm
  constructor
  · intro c hl hst hin hfl
    obtain ⟨t, hexec, hsame, hreply, hraised⟩ := exec_emergencyReset_clears tag hadm hl hst hin hfl
    refine ⟨t, hexec, by rw [hsame.ble]; exact hsame, hreply, hraised, ?_⟩
    rw [computeWork_dEff_of_cleared (by rw [hsame.diu]) (by rw [hsame.diu]), hsame.mdc, hsame.diu,
      hsame.pst, hsame.nlc]
  · rintro payload (⟨hl, rfl⟩ | ⟨hl, hst, rfl⟩ | ⟨hl, hst, hin, rfl⟩ | ⟨hl, hst, hin, hfl, rfl⟩)
    · exact exec_emergencyReset_answers tag hadm (emergencyResetBody_clear hl)
    · exact exec_emergencyReset_answers tag hadm (emergencyResetBody_moving hl hst)
    · exact exec_emergencyReset_answers tag hadm (emergencyResetBody_input hl hst hin)
    · exact exec_emergencyReset_answers tag hadm (emergencyResetBody_flag hl hst hin hfl)

end Sys2Proof.Machine
end

section
/-! SUPPORT. The blend's air part: the equal split, the pressures and the floor, and that what the blend reads
of the demand, the parameter sets and the mode stands through the blocks' work at a COMPUTE. -/

namespace Sys2Proof

/-! ## Values per axle -/

@[simp] theorem PerAxle.get_of {α : Type} (f : Axle → α) (a : Axle) : (PerAxle.of f).get a = f a := by
  cases a <;> rfl

@[simp] theorem PerAxle.get_fill {α : Type} (x : α) (a : Axle) : (PerAxle.fill x).get a = x := by
  cases a <;> rfl

theorem PerAxle.of_get {α : Type} (p : PerAxle α) : PerAxle.of p.get = p := by
  cases p; rfl

theorem PerAxle.map_of {α β : Type} (f : Axle → α) (g : α → β) :
    (PerAxle.of f).map g = .of fun a => g (f a) := rfl

theorem PerAxle.get_modify {α : Type} (p : PerAxle α) (f : α → α) (a b : Axle) :
    (p.modify a f).get b = if b = a then f (p.get a) else p.get b := by
  cases a <;> cases b <;> rfl

theorem PerAxle.sum_modify_succ (p : PerAxle Nat) (a : Axle) : (p.modify a (· + 1)).sum = p.sum + 1 := by
  cases a <;> simp only [PerAxle.modify, PerAxle.set, PerAxle.get, PerAxle.sum] <;> omega

@[simp] theorem PerAxle.sum_fill (x : Nat) : (PerAxle.fill x).sum = 6 * x := by
  simp only [PerAxle.fill, PerAxle.sum]; omega

/-- The first `k` axles are those of the numbers up to `k`. -/
theorem Axle.mem_take_all {k : Nat} (hk : k < 6) (a : Axle) : a ∈ Axle.all.take k ↔ a.number ≤ k := by
  have small : ∀ k < 6, (∀ a ∈ Axle.all, a ∈ Axle.all.take k ↔ a.number ≤ k) := by decide
  exact small k hk a (by cases a <;> decide)

namespace Machine

/-! ## The air split (R25) -/

/-- Of axles listed once, the first `n` get one unit more. -/
theorem giveExtra_get {l : List Axle} (hl : l.Nodup) (n : Nat) (p : PerAxle Nat) (a : Axle) :
    (giveExtra n l p).get a = p.get a + if a ∈ l.take n then 1 else 0 := by
  induction l generalizing n p with
  | nil => cases n <;> simp [giveExtra]
  | cons b rest ih =>
    obtain ⟨hb, hrest⟩ := List.nodup_cons.mp hl
    cases n with
    | zero => simp [giveExtra]
    | succ n =>
      simp only [giveExtra, ih hrest, PerAxle.get_modify, List.take_succ_cons, List.mem_cons]
      by_cases hab : a = b
      · subst hab
        simp [show a ∉ rest.take n from fun h => hb (List.mem_of_mem_take h)]
      · simp [hab]

/-- The units given more are as many as asked for and axles listed. -/
theorem giveExtra_sum (l : List Axle) (n : Nat) (p : PerAxle Nat) :
    (giveExtra n l p).sum = p.sum + min n l.length := by
  induction l generalizing n p with
  | nil => cases n <;> simp [giveExtra]
  | cons b rest ih =>
    cases n with
    | zero => simp [giveExtra]
    | succ n => simp only [giveExtra, ih, PerAxle.sum_modify_succ, List.length_cons]; omega

theorem airSplit_get (total : Nat) (a : Axle) :
    (airSplit total).get a = total / 6 + if a.number ≤ total % 6 then 1 else 0 := by
  have hk : total % 6 < 6 := Nat.mod_lt _ (by decide)
  simp only [airSplit, giveExtra_get (by decide : Axle.all.Nodup), PerAxle.get_fill,
    Axle.mem_take_all hk]

theorem airSplit_sum (total : Nat) : (airSplit total).sum = total := by
  have hlen : Axle.all.length = 6 := rfl
  simp only [airSplit, giveExtra_sum, PerAxle.sum_fill, hlen]
  omega

/-- A total of at most 6000 gives no axle more than 1000. -/
theorem airSplit_get_le {total : Nat} (h : total ≤ 6000) (a : Axle) : (airSplit total).get a ≤ 1000 := by
  rw [airSplit_get]
  split
  · rename_i hnum
    have : 0 < a.number := by cases a <;> decide
    omega
  · omega

/-! ## Pressures (R26, R27) -/

theorem ceilDiv_eq {b : Nat} (hb : 0 < b) (a : Nat) : ceilDiv a b = (a + (b - 1)) / b := by
  rw [ceilDiv, Nat.add_sub_assoc hb]

theorem ceilDiv_pos {a b : Nat} (ha : 0 < a) (hb : 0 < b) : 0 < ceilDiv a b := by
  rw [ceilDiv_eq hb]
  exact Nat.div_pos (by omega) hb

theorem pressureFor_zero (b : BlendParams) : pressureFor b 0 = (0, false) := rfl

theorem pressureFor_above {b : BlendParams} {share : Nat} (hs : 0 < share)
    (hp : b.ceiling < b.airOffset + ceilDiv (share * 1024) b.airGain) :
    pressureFor b share = (b.ceiling, true) := by
  simp [pressureFor, Nat.ne_of_gt hs, hp]

theorem pressureFor_below {b : BlendParams} {share : Nat} (hs : 0 < share)
    (hp : b.airOffset + ceilDiv (share * 1024) b.airGain ≤ b.ceiling) :
    pressureFor b share = (b.airOffset + ceilDiv (share * 1024) b.airGain, false) := by
  simp [pressureFor, Nat.ne_of_gt hs, Nat.not_lt.mpr hp]

/-! ## The rate step keeps its bound (R2, R3) -/

theorem rateLimited_le {m dReq dEff : Nat} (hReq : dReq ≤ m) (hEff : dEff ≤ m)
    (apply release tf : Nat) : rateLimited apply release tf dReq dEff ≤ m := by
  unfold rateLimited
  split
  · omega
  · split <;> omega

theorem computeDiu_dEff_le {s : State} (h : BrakeInv s) : (computeDiu s).diu.dEff ≤ 6000 := by
  obtain ⟨hReq, hEff, -, -⟩ := h.demand
  unfold computeDiu
  split
  · exact rateLimited_le hReq hEff _ _ _
  · exact hEff

/-! ## What stands through the blocks' work at a COMPUTE -/

/-- What `π` reads of a state lies outside the ASU, the WSC, the DBS, the BLE and the record path. -/
structure BesideBrakes {α : Type} (π : State → α) : Prop where
  onAsu : ∀ f s, π (s.onAsu f) = π s
  onWsc : ∀ f s, π (s.onWsc f) = π s
  onDbs : ∀ f s, π (s.onDbs f) = π s
  onBle : ∀ f s, π (s.onBle f) = π s
  raiseEvent : ∀ k x v w s, π (raiseEvent k x v w s) = π s

theorem diu_besideBrakes : BesideBrakes State.diu :=
  ⟨fun _ _ => rfl, fun _ _ => rfl, fun _ _ => rfl, fun _ _ => rfl, raiseEvent_diu⟩

theorem pst_besideBrakes : BesideBrakes State.pst :=
  ⟨fun _ _ => rfl, fun _ _ => rfl, fun _ _ => rfl, fun _ _ => rfl, raiseEvent_pst⟩

theorem mdc_besideBrakes : BesideBrakes State.mdc :=
  ⟨fun _ _ => rfl, fun _ _ => rfl, fun _ _ => rfl, fun _ _ => rfl, raiseEvent_mdc⟩

namespace BesideBrakes

variable {α : Type} {π : State → α}

theorem computeAsu (h : BesideBrakes π) (s : State) : π (computeAsu s) = π s := by
  unfold Machine.computeAsu; dsimp only; split
  · rw [h.raiseEvent, h.onAsu]
  · exact h.onAsu _ _

theorem dropAxle (h : BesideBrakes π) (a : Axle) (s : State) : π (dropAxle a s) = π s :=
  (h.onDbs _ _).trans (h.onBle _ _)

theorem addCause (h : BesideBrakes π) (a : Axle) (c : IsoCause) (s : State) :
    π (addCause a c s) = π s := by
  unfold Machine.addCause; dsimp only; split
  · exact h.onWsc _ _
  · rw [h.raiseEvent, h.dropAxle, h.onWsc, h.onWsc]

theorem wscSensor (h : BesideBrakes π) (a : Axle) (s : State) : π (wscSensor a s) = π s := by
  unfold Machine.wscSensor; dsimp only; split
  · exact (h.onWsc _ _).trans (h.onWsc _ _)
  · split
    · rw [h.addCause, h.onWsc]
    · exact h.onWsc _ _

theorem wscRestore (h : BesideBrakes π) (a : Axle) (s : State) : π (wscRestore a s) = π s := by
  unfold Machine.wscRestore; split
  · rw [h.raiseEvent, h.onWsc]
  · rfl

theorem wscEpisode (h : BesideBrakes π) (a : Axle) (s : State) : π (wscEpisode a s) = π s := by
  unfold Machine.wscEpisode; dsimp only; split
  · split
    · rw [h.raiseEvent, h.onWsc, h.onWsc]
    · exact h.onWsc _ _
  · rfl

theorem wscLock (h : BesideBrakes π) (a : Axle) (s : State) : π (wscLock a s) = π s := by
  unfold Machine.wscLock; dsimp only; split
  · exact h.onWsc _ _
  · split
    · exact h.onWsc _ _
    · split
      · rw [h.raiseEvent, h.onWsc, h.onWsc]
      · exact h.onWsc _ _

theorem slideOnset (h : BesideBrakes π) (a : Axle) (s : State) : π (slideOnset a s) = π s :=
  (h.raiseEvent _ _ _ _ _).trans (h.onWsc _ _)

theorem reliefSlides (h : BesideBrakes π) (a : Axle) (s : State) : π (reliefSlides a s) = π s := by
  unfold Machine.reliefSlides; dsimp only; split
  · rw [h.raiseEvent, h.onWsc, h.onWsc]
  · exact h.onWsc _ _

theorem recoverGoesOn (h : BesideBrakes π) (a : Axle) (s : State) : π (recoverGoesOn a s) = π s := by
  unfold Machine.recoverGoesOn; dsimp only; split
  · rw [h.raiseEvent, h.onWsc]
  · exact h.onWsc _ _

theorem wscMachine (h : BesideBrakes π) (a : Axle) (s : State) : π (wscMachine a s) = π s := by
  unfold Machine.wscMachine; dsimp only
  cases (s.wsc.get a).slide with
  | isolated => rfl
  | normal =>
    dsimp only; split
    · exact h.slideOnset a s
    · rfl
  | relief =>
    dsimp only; split
    · exact h.onWsc _ _
    · split
      · exact h.reliefSlides a s
      · rfl
  | dump =>
    dsimp only; split
    · exact h.onWsc _ _
    · rfl
  | recover =>
    dsimp only; split
    · exact h.onWsc _ _
    · exact h.recoverGoesOn a s

theorem wscCeiling (h : BesideBrakes π) (a : Axle) (s : State) : π (wscCeiling a s) = π s := by
  unfold Machine.wscCeiling; split
  · exact h.onWsc _ _
  · exact h.onWsc _ _
  · rfl

theorem wscAxle (h : BesideBrakes π) (a : Axle) (s : State) : π (wscAxle a s) = π s := by
  unfold Machine.wscAxle; dsimp only; split
  · rw [h.wscRestore, h.wscSensor]
  · split
    · rw [h.wscCeiling, h.wscMachine, h.wscLock, h.wscEpisode, h.wscSensor]
    · exact h.wscSensor a s

theorem dbsEnable (h : BesideBrakes π) (s : State) : π (dbsEnable s) = π s := by
  unfold Machine.dbsEnable; split
  · exact h.onDbs _ _
  · rfl

theorem dbsCool (h : BesideBrakes π) (s : State) : π (dbsCool s) = π s := by
  unfold Machine.dbsCool; dsimp only
  cases s.dbs.state with
  | available =>
    dsimp only; split
    · rw [h.raiseEvent, h.onDbs]
    · rfl
  | cool =>
    dsimp only; split
    · rw [h.raiseEvent, h.onDbs]
    · rfl
  | off | exciting | lost | rest => rfl

theorem computeDbs (h : BesideBrakes π) (s : State) : π (computeDbs s) = π s := by
  rw [Machine.computeDbs, dbsCapacity, h.onDbs, h.dbsCool, dbsHeat, h.onDbs, h.dbsEnable]

theorem stopShortfall (h : BesideBrakes π) (s : State) : π (stopShortfall s) = π s := by
  unfold Machine.stopShortfall; split
  · rw [shortfallOff, h.raiseEvent, h.onBle]
  · rfl

theorem resumeShortfall (h : BesideBrakes π) (s : State) : π (resumeShortfall s) = π s := by
  unfold Machine.resumeShortfall; split
  · exact h.stopShortfall s
  · rfl

theorem sustain (h : BesideBrakes π) (d : Int) (s : State) : π (sustain d s) = π s := by
  unfold Machine.sustain; dsimp only; split
  · rw [h.raiseEvent, h.onBle, h.onBle]
  · exact h.onBle _ _

theorem judgeShortfall (h : BesideBrakes π) (s : State) : π (judgeShortfall s) = π s := by
  unfold Machine.judgeShortfall; dsimp only; split
  · rw [h.raiseEvent, h.onBle]
  · exact h.sustain _ s
  · rw [shortfallOff, h.raiseEvent, h.onBle]
  · rfl

theorem blendOutputs (h : BesideBrakes π) (s : State) : π (blendOutputs s) = π s := by
  unfold Machine.blendOutputs; split
  · split
    · rw [emergencyOutputs, h.onBle, h.stopShortfall]
    · rw [h.judgeShortfall, serviceOutputs, h.onBle, h.resumeShortfall]
  · rw [parkHold, h.onBle]

theorem computeBle (h : BesideBrakes π) (s : State) : π (computeBle s) = π s :=
  (h.onBle _ _).trans (h.blendOutputs s)

end BesideBrakes

/-! ## The outputs of the service blend -/

/-- The state the BLE finds at a COMPUTE: the DIU, the ASU, the WSC and the DBS have worked (R109). -/
def beforeBlend (s : State) : State :=
  computeDbs (forAxles wscAxle (computeAsu (computeDiu s)))

theorem computeWork_eq (s : State) : computeWork s = computeMdc (computeBle (beforeBlend s)) := rfl

/-- What lies outside the working blocks stands behind the rate step as the rate step left it. -/
theorem BesideBrakes.beforeBlend {α : Type} {π : State → α} (h : BesideBrakes π) (s : State) :
    π (beforeBlend s) = π (computeDiu s) := by
  rw [Machine.beforeBlend, h.computeDbs, forAxles_keeps π h.wscAxle, h.computeAsu]

theorem computeDiu_eq (s : State) : computeDiu s = s.onDiu fun d =>
    { d with dEff := (computeDiu s).diu.dEff } := by
  unfold computeDiu; split <;> rfl

@[simp] theorem computeDiu_pst (s : State) : (computeDiu s).pst = s.pst := by rw [computeDiu_eq]; rfl

@[simp] theorem computeDiu_mdc (s : State) : (computeDiu s).mdc = s.mdc := by rw [computeDiu_eq]; rfl

@[simp] theorem computeDiu_indep (s : State) : (computeDiu s).diu.indep = s.diu.indep := by
  rw [computeDiu_eq]; rfl

@[simp] theorem computeDiu_latch (s : State) : (computeDiu s).diu.latch = s.diu.latch := by
  rw [computeDiu_eq]; rfl

/-- The MDC has no test in RUNNING. -/
theorem computeMdc_running {s : State} (h : s.mdc.mode = .running) :
    computeMdc s = s.onMdc fun m => { m with workMode := m.mode } := by
  rw [computeMdc, mdcTests, h]

/-- The fields of the BLE that the shortfall evaluation leaves as they are. -/
def sameOutputs (x y : Ble) : Prop :=
  y.axles = x.axles ∧ y.eTotal = x.eTotal ∧ y.aTotal = x.aTotal ∧ y.emergencyFlag = x.emergencyFlag

theorem sustain_sameOutputs (d : Int) (s : State) : sameOutputs s.ble (sustain d s).ble := by
  unfold sustain; dsimp only; split
  · rw [raiseEvent_ble]; exact ⟨rfl, rfl, rfl, rfl⟩
  · exact ⟨rfl, rfl, rfl, rfl⟩

theorem shortfallOff_sameOutputs (d : Option Int) (s : State) :
    sameOutputs s.ble (shortfallOff d s).ble := by
  rw [shortfallOff, raiseEvent_ble]; exact ⟨rfl, rfl, rfl, rfl⟩

theorem judgeShortfall_sameOutputs (s : State) : sameOutputs s.ble (judgeShortfall s).ble := by
  unfold judgeShortfall; dsimp only; split
  · rw [raiseEvent_ble]; exact ⟨rfl, rfl, rfl, rfl⟩
  · exact sustain_sameOutputs _ s
  · exact shortfallOff_sameOutputs _ s
  · exact ⟨rfl, rfl, rfl, rfl⟩

/-- R16: in RUNNING with the latch clear the outputs are the service blend's; the shortfall evaluation before
and after it changes none of them. -/
theorem computeBle_service {s : State} (hm : s.mdc.mode = .running) (hl : s.diu.latch = none) :
    let u := (serviceOutputs (resumeShortfall s)).ble
    let t := (computeBle s).ble
    t.axles = u.axles ∧ t.aTotal = u.aTotal ∧ t.emergencyFlag = u.emergencyFlag := by
  obtain ⟨haxles, -, haTotal, hflag⟩ :=
    judgeShortfall_sameOutputs (serviceOutputs (resumeShortfall s))
  simp only [computeBle, blendOutputs, hm, hl, if_true, State.onBle_ble]
  exact ⟨haxles, haTotal, hflag⟩

theorem blendedDemand_le (s : State) : blendedDemand s ≤ s.diu.dEff := by
  unfold blendedDemand; split <;> omega

/-- Stages 6 and 7 (R25 to R27): in RUNNING with the latch clear a COMPUTE gives every axle its share of the
split and that share's pressure. -/
theorem computeWork_air {s : State} (hm : s.mdc.mode = .running) (hl : s.diu.latch = none) :
    let t := computeWork s
    t.ble.emergencyFlag = false ∧ t.ble.aTotal ≤ (computeDiu s).diu.dEff
      ∧ t.diu.indep = s.diu.indep
      ∧ ∃ (commands : Axle → Nat) (old : Axle → BleAxle), t.ble.axles = .of fun a =>
          axleOutputs s.pst.active.blend s.diu.indep (commands a) ((airSplit t.ble.aTotal).get a)
            (old a) := by
  have hmode : (beforeBlend s).mdc.mode = .running := by
    rw [mdc_besideBrakes.beforeBlend, computeDiu_mdc, hm]
  have hlatch : (beforeBlend s).diu.latch = none := by
    rw [diu_besideBrakes.beforeBlend, computeDiu_latch, hl]
  have hwork := computeMdc_running (s := computeBle (beforeBlend s))
    (by rw [mdc_besideBrakes.computeBle, hmode])
  obtain ⟨haxles, haTotal, hflag⟩ := computeBle_service hmode hlatch
  have hdiu : (resumeShortfall (beforeBlend s)).diu = (computeDiu s).diu := by
    rw [diu_besideBrakes.resumeShortfall, diu_besideBrakes.beforeBlend]
  have hpst : (resumeShortfall (beforeBlend s)).pst = s.pst := by
    rw [pst_besideBrakes.resumeShortfall, pst_besideBrakes.beforeBlend, computeDiu_pst]
  have hdemand := blendedDemand_le (resumeShortfall (beforeBlend s))
  rw [computeWork_eq, hwork]
  simp only [State.onMdc_ble, State.onMdc_diu, haxles, haTotal, hflag, serviceOutputs,
    State.onBle_ble, hdiu, hpst, computeDiu_indep, true_and]
  refine ⟨?_, ?_, _, _, rfl⟩
  · rw [hdiu] at hdemand; omega
  · rw [diu_besideBrakes.computeBle, diu_besideBrakes.beforeBlend, computeDiu_indep]

theorem axleOutputs_airShare (b : BlendParams) (indep command share : Nat) (old : BleAxle) :
    (axleOutputs b indep command share old).airShare = share := rfl

/-- R26, R27: the target and the clamped mark of an axle from its air share, the floor at or below the
ceiling. -/
theorem axleOutputs_pressure {b : BlendParams} {indep : Nat} (hgain : 0 < b.airGain)
    (hindep : indep ≤ b.ceiling) (command share : Nat) (old : BleAxle) :
    let x := axleOutputs b indep command share old
    let p := b.airOffset + (share * 1024 + (b.airGain - 1)) / b.airGain
    (share = 0 → x.target = indep ∧ x.clamped = false)
    ∧ (0 < share → b.ceiling < p →
        x.target = max b.ceiling indep ∧ indep ≤ b.ceiling ∧ x.clamped = true)
    ∧ (0 < share → p ≤ b.ceiling →
        x.target = max p indep ∧ x.clamped = false ∧ b.airOffset + 1 ≤ p) := by
  simp only [← ceilDiv_eq hgain, axleOutputs]
  refine ⟨?_, ?_, ?_⟩
  · rintro rfl
    simp [pressureFor_zero]
  · intro hs hp
    simp [pressureFor_above hs hp, hindep]
  · intro hs hp
    have := ceilDiv_pos (show 0 < share * 1024 by omega) hgain
    simp only [pressureFor_below hs hp, true_and]
    omega

/-- Settles O22: every axle's outputs are its share of the split and that share's pressure, whatever the blocks
before the BLE have done. -/
theorem blendSplitsAirAndSetsPressures : Obligations.BlendSplitsAirAndSetsPressures := by
  intro s hinv hm hl
  obtain ⟨hflag, htotal, hindep, commands, old, haxles⟩ := computeWork_air hm hl
  have hbound : (computeWork s).ble.aTotal ≤ 6000 := Nat.le_trans htotal (computeDiu_dEff_le hinv)
  have hshares : (computeWork s).ble.axles.map (·.airShare) = airSplit (computeWork s).ble.aTotal := by
    simp only [haxles, PerAxle.map_of, axleOutputs_airShare, PerAxle.of_get]
  refine ⟨by rw [hshares, airSplit_sum], hflag, fun a => ?_⟩
  simp only [hindep, haxles, PerAxle.get_of]
  exact ⟨airSplit_get _ a, airSplit_get_le hbound a,
    axleOutputs_pressure hinv.gain.2 hinv.indep _ _ _⟩

end Machine
end Sys2Proof
end

section
/-! SUPPORT. What NOTICE_MASK answers, and that a request answered at once, with the grant behind it, adds
replies alone to the records to be sent. -/

namespace Sys2Proof.Machine

/-! ## Sets of event kinds (R192) -/

/-- The map that `kindSetOk` tests with has the bits that stand for no kind. -/
theorem reservedBits_getLsbD {i : Nat} (hi : i < 64) :
    (0xFFFF000000000001#64).getLsbD i = decide (i = 0 ∨ 48 ≤ i) := by
  have small : ∀ i < 64, (0xFFFF000000000001#64).getLsbD i = decide (i = 0 ∨ 48 ≤ i) := by decide
  exact small i hi

/-- R192: a set is refused exactly for a bit that stands for no event kind. -/
theorem kindSetOk_iff (m : KindSet) :
    kindSetOk m = true ↔ ∀ i, i = 0 ∨ 48 ≤ i → m.getLsbD i = false := by
  rw [kindSetOk, beq_iff_eq]
  constructor
  · intro h i hi
    by_cases hlt : i < 64
    · simpa [BitVec.getLsbD_and, reservedBits_getLsbD hlt, hi] using congrArg (·.getLsbD i) h
    · exact BitVec.getLsbD_of_ge m i (Nat.le_of_not_lt hlt)
  · intro h
    refine BitVec.eq_of_getLsbD_eq fun i hi => ?_
    by_cases hr : i = 0 ∨ 48 ≤ i
    · simp [h i hr]
    · simp [reservedBits_getLsbD hi, hr]

/-! ## The records of a source other than the replies -/

/-- The records of one source among those to be sent. -/
def recordsOf (src : TxSource) (h : Hlp) : List TxRecord := (outbox h).filter fun r => r.source == src

theorem recordsOf_masks (src : TxSource) (h : Hlp) (notice attn : KindSet) :
    recordsOf src { h with noticeMask := notice, attentionMask := attn } = recordsOf src h := rfl

@[simp] theorem setBurst_hlp (b : Option Burst) (s : State) : (setBurst b s).hlp = s.hlp := rfl

@[simp] theorem startWork_hlp (w : MemWork) (time : Nat) (s : State) :
    (startWork w time s).hlp = s.hlp := rfl

section
variable {src : TxSource} (hsrc : src ≠ .reply)
include hsrc

theorem recordsOf_placeReply (k t : Byte) (p : List Byte) (s : State) :
    recordsOf src (placeReply k t p s).hlp = recordsOf src s.hlp := by
  simp [recordsOf, placeReply, hsrc.symm]

theorem recordsOf_answerHead (t : Byte) (r : ReadSource) (p : List Byte) (s : State) :
    recordsOf src (answerHead t r p s).hlp = recordsOf src s.hlp := by
  unfold answerHead; dsimp only; split
  · rfl
  · exact recordsOf_placeReply hsrc _ _ _ _

theorem recordsOf_serve (n : Nat) (s : State) :
    recordsOf src (serve n s).hlp = recordsOf src s.hlp := by
  induction n generalizing s with
  | zero => rfl
  | succ n ih =>
    unfold serve; split
    · rfl
    · split
      · rw [ih, recordsOf_answerHead hsrc]
        split <;> rfl
      · split
        · rfl
        · rw [ih, recordsOf_answerHead hsrc]

theorem recordsOf_grantWork (s : State) : recordsOf src (grantWork s).hlp = recordsOf src s.hlp := by
  unfold grantWork
  repeat' split
  all_goals simp [recordsOf_serve hsrc]

theorem recordsOf_serveBurst (s : State) :
    recordsOf src (serveBurst s).hlp = recordsOf src s.hlp := by
  unfold serveBurst; dsimp only; split
  · exact recordsOf_serve hsrc _ s
  · rw [recordsOf_grantWork hsrc, recordsOf_serve hsrc]

/-- A grant answers reads; it places no notice and no REPORT. -/
theorem recordsOf_grant (s : State) : recordsOf src (grant s).hlp = recordsOf src s.hlp := by
  unfold grant; dsimp only; split
  · rfl
  · split
    · exact recordsOf_grantWork hsrc s
    · split
      · rw [recordsOf_grantWork hsrc, setBurst_hlp]
      · rw [recordsOf_serveBurst hsrc, setBurst_hlp]

/-- Where an admitted request is answered at once, the notices and the REPORT to be sent are those its body
left. -/
theorem recordsOf_request {s t u : State} (h : Admits s) {kind tag : Byte}
    {body : State → State × Answer} {p : List Byte} (hb : body s = (u, .reply p))
    (ht : live (request kind tag true true body) s = .next t) :
    recordsOf src t.hlp = recordsOf src u.hlp := by
  rw [live_next _ s h.1, request_admitted h, execute_reply hb] at ht
  obtain rfl := Host.Outcome.next.inj ht
  rw [recordsOf_grant hsrc, recordsOf_placeReply hsrc]

end

/-! ## NOTICE_MASK -/

theorem exec_noticeMask (tag : Byte) (notice attn : KindSet) (s : State) :
    exec (.noticeMask tag notice attn) s
      = live (request 0x19 tag true true (noticeMaskBody notice attn)) s := rfl

theorem noticeMaskBody_ok {notice attn : KindSet} (hn : kindSetOk notice = true)
    (ha : kindSetOk attn = true) (s : State) : noticeMaskBody notice attn s
      = ({ s with hlp := { s.hlp with noticeMask := notice, attentionMask := attn } },
        .reply [0]) := by
  simp only [noticeMaskBody, hn, ha]; rfl

theorem noticeMaskBody_reserved {notice attn : KindSet}
    (h : ¬ (kindSetOk notice = true ∧ kindSetOk attn = true)) (s : State) :
    noticeMaskBody notice attn s = (s, .reply [8]) := by
  rw [noticeMaskBody, if_neg (by rwa [Bool.and_eq_true])]; rfl

/-- R186: the attention output, as a statement about the two sets it is computed from. -/
theorem attention_iff (h : Hlp) : attention h = true ↔ h.latched &&& h.attentionMask ≠ 0 := by
  simp [attention]

/-- Settles O13: by the two branches of NOTICE_MASK's body; the attention output follows from the frame, the
notices from what a request and its grant place. -/
theorem noticeMaskReplacesBothMasks : Obligations.NoticeMaskReplacesBothMasks := by
  intro tag notice attn s hadm
  constructor
  · intro hclear
    have hbody := noticeMaskBody_ok ((kindSetOk_iff notice).mpr fun i hi => (hclear i hi).1)
      ((kindSetOk_iff attn).mpr fun i hi => (hclear i hi).2) s
    obtain ⟨t, hexec, hreply, hmem⟩ := request_completes hadm (tag := tag) (kind := 0x19) hbody
    have hnotices : recordsOf .notice t.hlp = recordsOf .notice s.hlp :=
      (recordsOf_request (by decide) hadm hbody hexec).trans (recordsOf_masks _ _ _ _)
    exact ⟨t, hexec, hreply, by rw [attention_iff, hmem.latched, hmem.attentionMask], hnotices, hmem⟩
  · rintro ⟨i, hi, hset⟩
    have hbody := noticeMaskBody_reserved (notice := notice) (attn := attn) (fun ⟨hn, ha⟩ => by
      simp [(kindSetOk_iff notice).mp hn i hi, (kindSetOk_iff attn).mp ha i hi] at hset) s
    obtain ⟨t, hexec, hreply, hmem⟩ := request_completes hadm (tag := tag) (kind := 0x19) hbody
    exact ⟨t, hexec, hreply, hmem⟩

end Sys2Proof.Machine
end
